-- ==== Sys2Proof/Word.lean ====
section
/-! DEFINITION. The machine's word types. Nothing but abbreviations stands here. -/

namespace Sys2Proof

/-- One byte of memory (R2). -/
abbrev Byte := BitVec 8

/-- A 64-bit register, token or pool word (R95, R161). -/
abbrev Word := BitVec 64

/-- An instruction or header word of 96 bits (R24). -/
abbrev Code := BitVec 96

/-- The data of a vector register or vector token (R96). -/
abbrev VBits := BitVec 256

end Sys2Proof
end

