-- ==== Sys2Proof/Config.lean ====
section
/-! DEFINITION. What the spec leaves to the part: opaque values that no proof can evaluate, and the figures of
the shipped part the model fixes. -/

namespace Sys2Proof.Config

/-- The firmware image of a flash copy: false the first, true the second (R360, R362). Log 10. -/
opaque firmware : Bool → List Byte

/-- How flash lays out a configuration record: version, S2ROOT, STOPA, SAVEA, its size, PARTW, the peers with their module
ids (R351, R358, R362). Log 10. -/
opaque recordImage : Nat → Nat → Nat → Nat → Nat → Nat → List (List Nat × Nat) → List Byte

/-- Byte `i` of the ECDSA P-384 signature of a report (R363): a key no rule gives, and a nonce of its own each time, told
by `State.freeCtr`. Log 10. -/
opaque signatureByte : Nat → List Byte → Nat → Byte

/-- Byte `i` of the certificate of the identity key (R363). Log 10. -/
opaque certByte : Nat → Byte

/-- A fresh byte for a value the spec leaves open, drawn with `State.freeCtr`. Log 9. -/
opaque freeByte : Nat → Byte

/-- Length in bytes of the certificate returned with an attestation report (R363). Log 10. -/
opaque certBytes : Nat

/-- The module id of R363 (19 bits, R13). Log 10. -/
opaque moduleId : BitVec 19

/-- How the start record tells of a power removal on the start before (R364): the spec says that it is recorded, not
how. Log 8. -/
opaque overtempDetail : BitVec 16

/-- XDIR where the cluster has no pager area to hold it (R214, R226, R390): no rule says. Log 21. -/
opaque bootXdir : Nat

end Sys2Proof.Config
end

