-- ==== Sys2Proof/Syntax.lean ====
section
/-! DEFINITION. The instruction words and device steps of the Darfel module: one constructor of `Instr` for every
row of the opcode table, the 198 forms of Table 9 of "Instruction words, blocks and the opcode map" (R44) and the 93
steps of "What each step holds". -/

namespace Sys2Proof

/-- Guard mode GM (R25). `reserved` is 11, which the scanner refuses (R46). -/
inductive Guard where
  | none | onTrue | onFalse | reserved
  deriving DecidableEq, Repr

/-- Operand width WD (R27). -/
inductive Width where
  | d | w | h | b
  deriving DecidableEq, Repr

/-- Operand slots (R29). -/
inductive Slot where
  | a | b | c | p
  deriving DecidableEq, Repr

/-- A valid target (R29): a slot of a later instruction of the block, a g register or a v register. -/
inductive Target where
  | slot (s : Slot) (index : BitVec 6)
  | greg (n : BitVec 4)
  | vreg (n : BitVec 3)
  deriving DecidableEq, Repr

/-- Targets T0 to T3 (R29, R31); `none` is a target with V = 0. -/
structure Targets where
  t0 : Option Target := .none
  t1 : Option Target := .none
  t2 : Option Target := .none
  t3 : Option Target := .none
  deriving DecidableEq, Repr

/-- Format A, arithmetic (R31). `crit` is HN = 001 (R26). -/
structure FmtA where
  gm : Guard := .none
  crit : Bool := false
  wd : Width := .d
  xf : BitVec 4 := 0
  t : Targets := {}
  z : BitVec 24 := 0
  deriving DecidableEq, Repr

/-- Format K, constant: targets T0 and T1 and a 48-bit constant (R31). -/
structure FmtK where
  gm : Guard := .none
  crit : Bool := false
  t0 : Option Target := .none
  t1 : Option Target := .none
  imm : BitVec 48 := 0
  deriving DecidableEq, Repr

/-- Format G, register read (R31). -/
structure FmtG where
  gm : Guard := .none
  crit : Bool := false
  t : Targets := {}
  vec : Bool := false
  reg : BitVec 4 := 0
  deriving DecidableEq, Repr

/-- Format M, memory (R31). `rx` is RX, `ord` is HN[80:79] = 01 (acquire or release), `mig` is HN[78] (R26). -/
structure FmtM where
  gm : Guard := .none
  rx : Bool := false
  ord : Bool := false
  mig : Bool := false
  lsid : BitVec 5 := 0
  t : Targets := {}
  z : BitVec 24 := 0
  deriving DecidableEq, Repr

/-- Format B, exit: link targets, exit number and offset or code (R31). -/
structure FmtB where
  gm : Guard := .none
  crit : Bool := false
  t0 : Option Target := .none
  t1 : Option Target := .none
  exit : BitVec 3 := 0
  z : BitVec 24 := 0
  deriving DecidableEq, Repr

/-- Format E with an LSID: engine, task and rate forms (R31, R32). -/
structure FmtE where
  gm : Guard := .none
  lsid : BitVec 5 := 0
  t : Targets := {}
  z : BitVec 24 := 0
  deriving DecidableEq, Repr

/-- Format E with LW = 63: PAUSE, RNGDRAW, HTEST, RFE, BKPT and HALT (R32). -/
structure FmtS where
  gm : Guard := .none
  crit : Bool := false
  t : Targets := {}
  z : BitVec 24 := 0
  deriving DecidableEq, Repr

/-- Where an access comes from (R190): a core's network interface or an engine of a cluster. -/
inductive Source where
  | ni (core : Nat)
  | engine (cluster engine : Nat)
  deriving DecidableEq, Repr

/-- Where an access is performed (R190): the pool of a core, or the far-memory bank behind a link (R20). -/
inductive Home where
  | pool (core : Nat)
  | far (link : Nat)
  deriving DecidableEq, Repr

/-- Sources 1 to 5 of the eclipse line (R334). -/
inductive EclipseSource where
  | halt | debugger | watchpoint | containment | controller
  deriving DecidableEq, Repr

/-- The two ways a management request arrives (R352). -/
inductive ReqPath where
  | mailbox (port : Nat)
  | ring (cluster : Nat)
  deriving DecidableEq, Repr

/-- What a start step's method meets when the controller runs it (R360, R361). -/
structure StepRun where
  primaryOk : Bool
  alternateOk : Bool
  detail : BitVec 16
  millis : BitVec 32
  deriving DecidableEq, Repr

/-- One constructor per row of the opcode table, in the table's order. -/
inductive Instr where
  /-- ADD (R107), OP 0x01, SUB 0. -/
  | add (f : FmtA)
  /-- SUB (R107), OP 0x01, SUB 1. -/
  | sub (f : FmtA)
  /-- MUL (R107), OP 0x01, SUB 2. -/
  | mul (f : FmtA)
  /-- MULH (R107), OP 0x01, SUB 3. -/
  | mulh (f : FmtA)
  /-- MULHU (R107), OP 0x01, SUB 4. -/
  | mulhu (f : FmtA)
  /-- DIV (R108), OP 0x01, SUB 5. -/
  | div (f : FmtA)
  /-- DIVU (R108), OP 0x01, SUB 6. -/
  | divu (f : FmtA)
  /-- REM (R108), OP 0x01, SUB 7. -/
  | rem (f : FmtA)
  /-- REMU (R108), OP 0x01, SUB 8. -/
  | remu (f : FmtA)
  /-- MIN (R107), OP 0x01, SUB 9. -/
  | min (f : FmtA)
  /-- MAX (R107), OP 0x01, SUB 10. -/
  | max (f : FmtA)
  /-- MINU (R107), OP 0x01, SUB 11. -/
  | minu (f : FmtA)
  /-- MAXU (R107), OP 0x01, SUB 12. -/
  | maxu (f : FmtA)
  /-- NEG (R107), OP 0x01, SUB 13. -/
  | neg (f : FmtA)
  /-- ABS (R107), OP 0x01, SUB 14. -/
  | abs (f : FmtA)
  /-- ADDI (R107), OP 0x02, SUB 0. -/
  | addi (f : FmtA)
  /-- MULI (R107), OP 0x02, SUB 1. -/
  | muli (f : FmtA)
  /-- ANDI (R107), OP 0x02, SUB 2. -/
  | andi (f : FmtA)
  /-- ORI (R107), OP 0x02, SUB 3. -/
  | ori (f : FmtA)
  /-- XORI (R107), OP 0x02, SUB 4. -/
  | xori (f : FmtA)
  /-- SHLI (R107), OP 0x02, SUB 5. -/
  | shli (f : FmtA)
  /-- SHRI (R107), OP 0x02, SUB 6. -/
  | shri (f : FmtA)
  /-- SARI (R107), OP 0x02, SUB 7. -/
  | sari (f : FmtA)
  /-- CEQI (R107), OP 0x02, SUB 8. -/
  | ceqi (f : FmtA)
  /-- CNEI (R107), OP 0x02, SUB 9. -/
  | cnei (f : FmtA)
  /-- CLTI (R107), OP 0x02, SUB 10. -/
  | clti (f : FmtA)
  /-- CLEI (R107), OP 0x02, SUB 11. -/
  | clei (f : FmtA)
  /-- CLTUI (R107), OP 0x02, SUB 12. -/
  | cltui (f : FmtA)
  /-- CLEUI (R107), OP 0x02, SUB 13. -/
  | cleui (f : FmtA)
  /-- LEA (R109), OP 0x02, SUB 14. -/
  | lea (f : FmtA)
  /-- AND (R110), OP 0x03, SUB 0. -/
  | and (f : FmtA)
  /-- OR (R110), OP 0x03, SUB 1. -/
  | or (f : FmtA)
  /-- XOR (R110), OP 0x03, SUB 2. -/
  | xor (f : FmtA)
  /-- NOT (R110), OP 0x03, SUB 3. -/
  | not (f : FmtA)
  /-- SHL (R110), OP 0x03, SUB 4. -/
  | shl (f : FmtA)
  /-- SHR (R110), OP 0x03, SUB 5. -/
  | shr (f : FmtA)
  /-- SAR (R110), OP 0x03, SUB 6. -/
  | sar (f : FmtA)
  /-- ROT (R110), OP 0x03, SUB 7. -/
  | rot (f : FmtA)
  /-- CLZ (R110), OP 0x03, SUB 8. -/
  | clz (f : FmtA)
  /-- CTZ (R110), OP 0x03, SUB 9. -/
  | ctz (f : FmtA)
  /-- POPC (R110), OP 0x03, SUB 10. -/
  | popc (f : FmtA)
  /-- BFX (R111), OP 0x03, SUB 11. -/
  | bfx (f : FmtA)
  /-- BFI (R111), OP 0x03, SUB 12. -/
  | bfi (f : FmtA)
  /-- SEXT (R110), OP 0x03, SUB 13. -/
  | sext (f : FmtA)
  /-- ZEXT (R110), OP 0x03, SUB 14. -/
  | zext (f : FmtA)
  /-- CEQ (R112), OP 0x04, SUB 0. -/
  | ceq (f : FmtA)
  /-- CNE (R112), OP 0x04, SUB 1. -/
  | cne (f : FmtA)
  /-- CLT (R112), OP 0x04, SUB 2. -/
  | clt (f : FmtA)
  /-- CLE (R112), OP 0x04, SUB 3. -/
  | cle (f : FmtA)
  /-- CLTU (R112), OP 0x04, SUB 4. -/
  | cltu (f : FmtA)
  /-- CLEU (R112), OP 0x04, SUB 5. -/
  | cleu (f : FmtA)
  /-- PAND (R112), OP 0x04, SUB 6. -/
  | pand (f : FmtA)
  /-- POR (R112), OP 0x04, SUB 7. -/
  | por (f : FmtA)
  /-- PXOR (R112), OP 0x04, SUB 8. -/
  | pxor (f : FmtA)
  /-- PNOT (R112), OP 0x04, SUB 9. -/
  | pnot (f : FmtA)
  /-- PPACK (R113), OP 0x04, SUB 10. -/
  | ppack (f : FmtA)
  /-- PBIT (R113), OP 0x04, SUB 11. -/
  | pbit (f : FmtA)
  /-- SEL (R114), OP 0x04, SUB 12. -/
  | sel (f : FmtA)
  /-- ISNULL (R115), OP 0x04, SUB 13. -/
  | isnull (f : FmtA)
  /-- MOV (R116), OP 0x05, SUB 0. -/
  | mov (f : FmtA)
  /-- MOVI (R116), OP 0x05, SUB 1. -/
  | movi (f : FmtK)
  /-- MOVHI (R116), OP 0x05, SUB 2. -/
  | movhi (f : FmtA)
  /-- NULL (R116), OP 0x05, SUB 3. -/
  | null (f : FmtA)
  /-- GET (R97), OP 0x05, SUB 4. -/
  | get (f : FmtG)
  /-- MFC (R117), OP 0x05, SUB 5. -/
  | mfc (f : FmtA)
  /-- MTC (R118), OP 0x05, SUB 6. -/
  | mtc (f : FmtA)
  /-- GTID (R116), OP 0x05, SUB 7. -/
  | gtid (f : FmtA)
  /-- CORE (R116), OP 0x05, SUB 8. -/
  | core (f : FmtA)
  /-- CLK (R116), OP 0x05, SUB 9. -/
  | clk (f : FmtA)
  /-- SIGCHK (R119), OP 0x05, SUB 10. -/
  | sigchk (f : FmtA)
  /-- FADD (R136), OP 0x06, SUB 0. -/
  | fadd (f : FmtA)
  /-- FSUB (R136), OP 0x06, SUB 1. -/
  | fsub (f : FmtA)
  /-- FMUL (R136), OP 0x06, SUB 2. -/
  | fmul (f : FmtA)
  /-- FDIV (R136), OP 0x06, SUB 3. -/
  | fdiv (f : FmtA)
  /-- FSQRT (R136), OP 0x06, SUB 4. -/
  | fsqrt (f : FmtA)
  /-- FMA (R136), OP 0x06, SUB 5. -/
  | fma (f : FmtA)
  /-- FMIN (R137), OP 0x06, SUB 6. -/
  | fmin (f : FmtA)
  /-- FMAX (R137), OP 0x06, SUB 7. -/
  | fmax (f : FmtA)
  /-- FNEG (R138), OP 0x06, SUB 8. -/
  | fneg (f : FmtA)
  /-- FABS (R138), OP 0x06, SUB 9. -/
  | fabs (f : FmtA)
  /-- FCEQ (R139), OP 0x06, SUB 10. -/
  | fceq (f : FmtA)
  /-- FCLT (R139), OP 0x06, SUB 11. -/
  | fclt (f : FmtA)
  /-- FCLE (R139), OP 0x06, SUB 12. -/
  | fcle (f : FmtA)
  /-- FCUN (R139), OP 0x06, SUB 13. -/
  | fcun (f : FmtA)
  /-- CVT (R141), OP 0x06, SUB 14. -/
  | cvt (f : FmtA)
  /-- BRA (R77), OP 0x07, SUB 0. -/
  | bra (f : FmtB)
  /-- JMP (R77), OP 0x07, SUB 1. -/
  | jmp (f : FmtB)
  /-- CALL (R77), OP 0x07, SUB 2. -/
  | call (f : FmtB)
  /-- RET (R77), OP 0x07, SUB 3. -/
  | ret (f : FmtB)
  /-- TEND (R80), OP 0x07, SUB 4. -/
  | tend (f : FmtB)
  /-- TRAP (R77), OP 0x07, SUB 5. -/
  | trap (f : FmtB)
  /-- MIG (R89), OP 0x07, SUB 6. -/
  | mig (f : FmtB)
  /-- FORK (R82), OP 0x08, SUB 0. -/
  | fork (f : FmtE)
  /-- JOIN (R83), OP 0x08, SUB 1. -/
  | join (f : FmtE)
  /-- JWAIT (R84), OP 0x08, SUB 2. -/
  | jwait (f : FmtE)
  /-- PAUSE (R85), OP 0x08, SUB 3. -/
  | pause (f : FmtS)
  /-- RNGOPEN (R121), OP 0x08, SUB 4. -/
  | rngopen (f : FmtE)
  /-- RNGDRAW (R121), OP 0x08, SUB 5. -/
  | rngdraw (f : FmtS)
  /-- RNGCLOSE (R121), OP 0x08, SUB 6. -/
  | rngclose (f : FmtE)
  /-- VADD (R147), OP 0x10, SUB 0. -/
  | vadd (f : FmtA)
  /-- VSUB (R147), OP 0x10, SUB 1. -/
  | vsub (f : FmtA)
  /-- VMUL (R147), OP 0x10, SUB 2. -/
  | vmul (f : FmtA)
  /-- VFMA (R147), OP 0x10, SUB 3. -/
  | vfma (f : FmtA)
  /-- VMIN (R147), OP 0x10, SUB 4. -/
  | vmin (f : FmtA)
  /-- VMAX (R147), OP 0x10, SUB 5. -/
  | vmax (f : FmtA)
  /-- VABS (R147), OP 0x10, SUB 6. -/
  | vabs (f : FmtA)
  /-- VNEG (R147), OP 0x10, SUB 7. -/
  | vneg (f : FmtA)
  /-- VDIV (R147), OP 0x10, SUB 8. -/
  | vdiv (f : FmtA)
  /-- VSQRT (R147), OP 0x10, SUB 9. -/
  | vsqrt (f : FmtA)
  /-- VCMP (R148), OP 0x10, SUB 10. -/
  | vcmp (f : FmtA)
  /-- VSEL (R149), OP 0x10, SUB 11. -/
  | vsel (f : FmtA)
  /-- VMASK (R149), OP 0x10, SUB 12. -/
  | vmask (f : FmtA)
  /-- VTMUL (R150), OP 0x10, SUB 13. -/
  | vtmul (f : FmtA)
  /-- VTADD (R150), OP 0x10, SUB 14. -/
  | vtadd (f : FmtA)
  /-- VCVT (R151), OP 0x11, SUB 0. -/
  | vcvt (f : FmtA)
  /-- VSCALE (R152), OP 0x11, SUB 1. -/
  | vscale (f : FmtA)
  /-- VDOT (R153), OP 0x11, SUB 2. -/
  | vdot (f : FmtA)
  /-- VRED (R153), OP 0x11, SUB 3. -/
  | vred (f : FmtA)
  /-- VPERM (R154), OP 0x11, SUB 4. -/
  | vperm (f : FmtA)
  /-- VBCAST (R155), OP 0x11, SUB 5. -/
  | vbcast (f : FmtA)
  /-- VEXT (R155), OP 0x11, SUB 6. -/
  | vext (f : FmtA)
  /-- VINS (R155), OP 0x11, SUB 7. -/
  | vins (f : FmtA)
  /-- VTAG (R156), OP 0x11, SUB 8. -/
  | vtag (f : FmtA)
  /-- LDB (R172), OP 0x20, SUB 0. -/
  | ldb (f : FmtM)
  /-- LDH (R172), OP 0x20, SUB 1. -/
  | ldh (f : FmtM)
  /-- LDW (R172), OP 0x20, SUB 2. -/
  | ldw (f : FmtM)
  /-- LDD (R172), OP 0x20, SUB 3. -/
  | ldd (f : FmtM)
  /-- LDBU (R172), OP 0x20, SUB 4. -/
  | ldbu (f : FmtM)
  /-- LDHU (R172), OP 0x20, SUB 5. -/
  | ldhu (f : FmtM)
  /-- LDWU (R172), OP 0x20, SUB 6. -/
  | ldwu (f : FmtM)
  /-- STB (R172), OP 0x20, SUB 8. -/
  | stb (f : FmtM)
  /-- STH (R172), OP 0x20, SUB 9. -/
  | sth (f : FmtM)
  /-- STW (R172), OP 0x20, SUB 10. -/
  | stw (f : FmtM)
  /-- STD (R172), OP 0x20, SUB 11. -/
  | std (f : FmtM)
  /-- VLD (R157), OP 0x20, SUB 12. -/
  | vld (f : FmtM)
  /-- VST (R158), OP 0x20, SUB 13. -/
  | vst (f : FmtM)
  /-- VLDG (R159), OP 0x20, SUB 14. -/
  | vldg (f : FmtM)
  /-- VSTS (R159), OP 0x20, SUB 15. -/
  | vsts (f : FmtM)
  /-- LDF (R176), OP 0x21, SUB 0. -/
  | ldf (f : FmtM)
  /-- LDE (R176), OP 0x21, SUB 1. -/
  | lde (f : FmtM)
  /-- STF (R176), OP 0x21, SUB 2. -/
  | stf (f : FmtM)
  /-- STS (R176), OP 0x21, SUB 3. -/
  | sts (f : FmtM)
  /-- FESET (R176), OP 0x21, SUB 4. -/
  | feset (f : FmtM)
  /-- FECLR (R176), OP 0x21, SUB 5. -/
  | feclr (f : FmtM)
  /-- FEGET (R176), OP 0x21, SUB 6. -/
  | feget (f : FmtM)
  /-- FENCE (R178), OP 0x21, SUB 7. -/
  | fence (f : FmtM)
  /-- AADD (R180), OP 0x22, SUB 0. -/
  | aadd (f : FmtM)
  /-- AMIN (R180), OP 0x22, SUB 1. -/
  | amin (f : FmtM)
  /-- AMAX (R180), OP 0x22, SUB 2. -/
  | amax (f : FmtM)
  /-- AMINU (R180), OP 0x22, SUB 3. -/
  | aminu (f : FmtM)
  /-- AMAXU (R180), OP 0x22, SUB 4. -/
  | amaxu (f : FmtM)
  /-- AAND (R180), OP 0x22, SUB 5. -/
  | aand (f : FmtM)
  /-- AOR (R180), OP 0x22, SUB 6. -/
  | aor (f : FmtM)
  /-- AXOR (R180), OP 0x22, SUB 7. -/
  | axor (f : FmtM)
  /-- AXCH (R180), OP 0x22, SUB 8. -/
  | axch (f : FmtM)
  /-- ACAS (R180), OP 0x22, SUB 9. -/
  | acas (f : FmtM)
  /-- AFADD (R180), OP 0x22, SUB 10. -/
  | afadd (f : FmtM)
  /-- PFILL (R220), OP 0x23, SUB 0. -/
  | pfill (f : FmtM)
  /-- PGSTAT (R221), OP 0x23, SUB 1. -/
  | pgstat (f : FmtM)
  /-- TLBINV (R223), OP 0x23, SUB 2. -/
  | tlbinv (f : FmtM)
  /-- HWAIT (R234), OP 0x30, SUB 0. -/
  | hwait (f : FmtE)
  /-- HTEST (R235), OP 0x30, SUB 1. -/
  | htest (f : FmtS)
  /-- HCANCEL (R236), OP 0x30, SUB 2. -/
  | hcancel (f : FmtE)
  /-- CPY (R238), OP 0x30, SUB 3. -/
  | cpy (f : FmtE)
  /-- CPYX (R240), OP 0x30, SUB 4. -/
  | cpyx (f : FmtE)
  /-- CPYS (R239), OP 0x30, SUB 5. -/
  | cpys (f : FmtE)
  /-- TMUL (R268), OP 0x31, SUB 0. -/
  | tmul (f : FmtE)
  /-- TMV (R274), OP 0x31, SUB 1. -/
  | tmv (f : FmtE)
  /-- TADD (R275), OP 0x31, SUB 2. -/
  | tadd (f : FmtE)
  /-- TASM (R276), OP 0x31, SUB 3. -/
  | tasm (f : FmtE)
  /-- TTYPE (R277), OP 0x31, SUB 4. -/
  | ttype (f : FmtE)
  /-- TFREE (R278), OP 0x31, SUB 5. -/
  | tfree (f : FmtE)
  /-- TCOPY (R279), OP 0x31, SUB 6. -/
  | tcopy (f : FmtE)
  /-- TTRANS (R280), OP 0x31, SUB 7. -/
  | ttrans (f : FmtE)
  /-- TSOLVE (R281), OP 0x31, SUB 8. -/
  | tsolve (f : FmtE)
  /-- TCHOL (R282), OP 0x31, SUB 9. -/
  | tchol (f : FmtE)
  /-- TRESUME (R287), OP 0x31, SUB 10. -/
  | tresume (f : FmtE)
  /-- DVAR (R304), OP 0x32, SUB 0. -/
  | dvar (f : FmtE)
  /-- DAPP (R305), OP 0x32, SUB 1. -/
  | dapp (f : FmtE)
  /-- DNOT (R306), OP 0x32, SUB 2. -/
  | dnot (f : FmtE)
  /-- DITE (R306), OP 0x32, SUB 3. -/
  | dite (f : FmtE)
  /-- DRES (R306), OP 0x32, SUB 4. -/
  | dres (f : FmtE)
  /-- DEXQ (R306), OP 0x32, SUB 5. -/
  | dexq (f : FmtE)
  /-- DCNT (R307), OP 0x32, SUB 6. -/
  | dcnt (f : FmtE)
  /-- DREF (R308), OP 0x32, SUB 7. -/
  | dref (f : FmtE)
  /-- DUNREF (R308), OP 0x32, SUB 8. -/
  | dunref (f : FmtE)
  /-- DGC (R309), OP 0x32, SUB 9. -/
  | dgc (f : FmtE)
  /-- DSIZE (R308), OP 0x32, SUB 10. -/
  | dsize (f : FmtE)
  /-- DRESUME (R311), OP 0x32, SUB 11. -/
  | dresume (f : FmtE)
  /-- RSINIT (R320), OP 0x33, SUB 0. -/
  | rsinit (f : FmtE)
  /-- RSBEGIN (R321), OP 0x33, SUB 1. -/
  | rsbegin (f : FmtE)
  /-- RSNEXT (R322), OP 0x33, SUB 2. -/
  | rsnext (f : FmtE)
  /-- RSREAD (R324), OP 0x33, SUB 3. -/
  | rsread (f : FmtE)
  /-- RSPUT (R323), OP 0x33, SUB 4. -/
  | rsput (f : FmtE)
  /-- RSSTAT (R325), OP 0x33, SUB 5. -/
  | rsstat (f : FmtE)
  /-- RFE (R331), OP 0x38, SUB 0. -/
  | rfe (f : FmtS)
  /-- BKPT (R332), OP 0x38, SUB 1. -/
  | bkpt (f : FmtS)
  /-- HALT (R332), OP 0x38, SUB 2. -/
  | halt (f : FmtS)
  /-- BLOCK_FETCH (R68). -/
  | blockFetch (core : Nat) (ctx : Nat)
  /-- CODE_CACHE_FILL (R389). -/
  | codeCacheFill (core : Nat) (ctx : Nat)
  /-- RESULT_DELIVERY (R67). -/
  | resultDelivery (core : Nat) (ctx : Nat)
  /-- BLOCK_COMMIT (R69). -/
  | blockCommit (core : Nat) (ctx : Nat)
  /-- TRAP_ENTRY (R330). -/
  | trapEntry (core : Nat) (ctx : Nat)
  /-- TASK_TERMINATE (R333). -/
  | taskTerminate (core : Nat) (ctx : Nat)
  /-- TASK_END (R80). -/
  | taskEnd (core : Nat) (ctx : Nat)
  /-- WAIT_RETRY (R74). -/
  | waitRetry (core : Nat) (ctx : Nat)
  /-- SPIN_EXPIRY (R74). -/
  | spinExpiry (core : Nat) (ctx : Nat)
  /-- PARK_ATTEMPT (R181). -/
  | parkAttempt (core : Nat) (ctx : Nat)
  /-- PARK_WRITEOUT (R75). -/
  | parkWriteout (core : Nat) (ctx : Nat)
  /-- PARK_SLOT_RETRY_EXPIRY (R186). -/
  | parkSlotRetryExpiry (core : Nat) (ctx : Nat)
  /-- WAKE_DELIVERY (R185). -/
  | wakeDelivery (core : Nat)
  /-- WLIMIT_EXPIRY (R187). -/
  | wlimitExpiry (core : Nat) (pslot : Nat)
  /-- WAIT_CANCEL (R187). -/
  | waitCancel (core : Nat)
  /-- FIND_WORK (R86). -/
  | findWork (core : Nat) (ctx : Nat)
  /-- STEAL_ATTEMPT (R87). -/
  | stealAttempt (core : Nat) (ctx : Nat)
  /-- STEAL_BACKOFF_EXPIRY (R87). -/
  | stealBackoffExpiry (core : Nat) (ctx : Nat)
  /-- ROOT_PLACEMENT (R88). -/
  | rootPlacement (launch : Nat)
  /-- MIGRATION_ARRIVAL (R92). -/
  | migrationArrival (core : Nat)
  /-- MIGRATION_NACK (R92). -/
  | migrationNack (core : Nat) (ctx : Nat)
  /-- MIGRATION_RETRY_EXPIRY (R92). -/
  | migrationRetryExpiry (core : Nat) (ctx : Nat)
  /-- REPLY_ARRIVAL (R93). -/
  | replyArrival (core : Nat) (ctx : Nat)
  /-- PAUSE_EXPIRY (R85). -/
  | pauseExpiry (core : Nat) (ctx : Nat)
  /-- POOL_SCRUB (R166). -/
  | poolScrub (core : Nat) (word : Nat)
  /-- SEND_NON_RELAXED (R193). -/
  | sendNonRelaxed (core : Nat) (ctx : Nat)
  /-- SEND_RELAXED (R193). -/
  | sendRelaxed (core : Nat) (ctx : Nat) (nth : Nat)
  /-- ARRIVE (R193). -/
  | arrive (source : Source) (home : Home)
  /-- PERFORM (R193). -/
  | perform (home : Home)
  /-- REPLAY (R193). -/
  | replay (cluster : Nat) (nth : Nat)
  /-- ACKNOWLEDGE (R193). -/
  | acknowledge (core : Nat) (ctx : Nat)
  /-- FAULT_RECORD_POST (R216). -/
  | faultRecordPost (cluster : Nat)
  /-- FAULT_POST_RETRY_EXPIRY (R216). -/
  | faultPostRetryExpiry (core : Nat) (ctx : Nat)
  /-- ENGINE_JOB_RESOLVE (R217). -/
  | engineJobResolve (cluster : Nat) (slot : Nat)
  /-- MAP_EXECUTABLE (R225). -/
  | mapExecutable (cluster : Nat)
  /-- WITHDRAW_EXECUTABLE (R225). -/
  | withdrawExecutable (cluster : Nat)
  /-- PFILL_RELAXED_WALK (R220). -/
  | pfillRelaxedWalk (core : Nat) (ctx : Nat)
  /-- QUEUE_RESERVATION_EXPIRY (R232). -/
  | queueReservationExpiry (cluster : Nat) (slot : Nat)
  /-- TME_STEP (R283). -/
  | tmeStep (cluster : Nat)
  /-- DDE_STEP (R312). -/
  | ddeStep (cluster : Nat)
  /-- COPY_FRAME (R243). -/
  | copyFrame (cluster : Nat)
  /-- CPYX_CHUNK (R242). -/
  | cpyxChunk (cluster : Nat) (chunk : Nat)
  /-- CPYX_FINISH (R242). -/
  | cpyxFinish (cluster : Nat)
  /-- ECLIPSE_RAISE (R334). -/
  | eclipseRaise (part : Nat) (src : EclipseSource)
  /-- STOP_AREA_WRITE (R334). -/
  | stopAreaWrite (part : Nat)
  /-- PREEMPT_GRACE_EXPIRY (R336). -/
  | preemptGraceExpiry (part : Nat)
  /-- PREEMPT_ABORT_EXPIRY (R336). -/
  | preemptAbortExpiry (part : Nat)
  /-- SAVE_RECORD_WRITE (R337). -/
  | saveRecordWrite (part : Nat)
  /-- SAVE_HEADER_WRITE (R337). -/
  | saveHeaderWrite (part : Nat)
  /-- CONTAINMENT (R340). -/
  | containment (umbra : Nat)
  /-- UMBRA_FENCE (R340). -/
  | umbraFence (umbra : Nat)
  /-- UMBRA_RESET (R340). -/
  | umbraReset (umbra : Nat)
  /-- CONTAINMENT_NOTICE (R340). -/
  | containmentNotice (umbra : Nat)
  /-- NACK_RECEIVED (R340). -/
  | nackReceived (core : Nat) (ctx : Nat)
  /-- DOORBELL (R347). -/
  | doorbell (port : Nat) (queue : Nat) (value : Word)
  /-- PEER_DOORBELL (R359). -/
  | peerDoorbell (link : Nat) (queue : Nat) (value : Word)
  /-- PEER_WRITE (R359). -/
  | peerWrite (link : Nat) (ia : BitVec 48) (data : List Byte)
  /-- LAUNCH_ENTRY (R348). -/
  | launchEntry (queue : Nat)
  /-- LAUNCH_COMPLETION (R350). -/
  | launchCompletion (launch : Nat)
  /-- MSIX_UNMASK (R355). -/
  | msixUnmask (port : Nat) (vec : Nat)
  /-- STAT_READ (R353). -/
  | statRead (port : Nat)
  /-- EVENT_READ (R353). -/
  | eventRead (port : Nat)
  /-- MAILBOX_WRITE (R353). -/
  | mailboxWrite (port : Nat) (off : Nat) (value : Word)
  /-- CREATE_PARTITION (R351). -/
  | createPartition (path : ReqPath)
  /-- DESTROY_PARTITION (R391). -/
  | destroyPartition (path : ReqPath)
  /-- SET_QUEUE (R344). -/
  | setQueue (path : ReqPath)
  /-- PREEMPT_PARTITION (R336). -/
  | preemptPartition (path : ReqPath)
  /-- RESUME_PARTITION (R338). -/
  | resumePartition (path : ReqPath)
  /-- SET_TIME_SLOT_TABLES (R357). -/
  | setTimeSlotTables (path : ReqPath)
  /-- SET_UMBRAE (R339). -/
  | setUmbrae (path : ReqPath)
  /-- TERMINATE_TASK (R333). -/
  | terminateTask (path : ReqPath)
  /-- READ_START_RECORD (R361). -/
  | readStartRecord (path : ReqPath)
  /-- ATTESTATION_REPORT (R363). -/
  | attestationReport (path : ReqPath)
  /-- RAISE_ECLIPSE_LINE (R334). -/
  | raiseEclipseLine (path : ReqPath)
  /-- RELEASE_ECLIPSE_LINE (R335). -/
  | releaseEclipseLine (path : ReqPath)
  /-- ATTACH (R374). -/
  | attach (path : ReqPath)
  /-- DETACH (R374). -/
  | detach (path : ReqPath)
  /-- SET_BREAKPOINT (R369). -/
  | setBreakpoint (path : ReqPath)
  /-- RELEASE_CONTEXT (R370). -/
  | releaseContext (path : ReqPath)
  /-- RELEASE_PARTITION (R335). -/
  | releasePartition (path : ReqPath)
  /-- READ_CONTEXT (R374). -/
  | readContext (path : ReqPath)
  /-- WRITE_CONTEXT (R374). -/
  | writeContext (path : ReqPath)
  /-- READ_JOB_QUEUE (R354). -/
  | readJobQueue (path : ReqPath)
  /-- READ_WAKE_TABLE (R354). -/
  | readWakeTable (path : ReqPath)
  /-- READ_COPY_TRACE (R354). -/
  | readCopyTrace (path : ReqPath)
  /-- TIME_SLOT_FRAME (R356). -/
  | timeSlotFrame
  /-- MODULE_START (R360). -/
  | moduleStart (outcomes : List StepRun)
  /-- DIE_ABOVE_95 (R364). -/
  | dieAbove95 (die : Nat)
  /-- DIE_BACK_AT_90 (R364). -/
  | dieBackAt90
  /-- DIE_ABOVE_105 (R364). -/
  | dieAbove105 (die : Nat)
  /-- OVERTEMP_POWER_REMOVAL (R364). -/
  | overtempPowerRemoval
  /-- CLOCK (R367). -/
  | clock
  /-- UNKNOWN_OPERATION (R224). -/
  | unknownOperation (path : ReqPath) (op : BitVec 8)
  deriving DecidableEq, Repr

end Sys2Proof
end

