-- ==== Sys2Proof/WellFormed.lean ====
section
/-! DEFINITION. Which terms of `Instr` stand for a word the scanner accepts taken alone (R25 to R32, R44, R46, R103,
R122, R140, R146, R331), and which device steps name agents the module has (R7 to R13). A word is checked here as a
typed term; `Machine/Scanner.lean` checks the raw 96 bits and the rules of a whole block. -/

namespace Sys2Proof

/-- A target at a consumer's slot, as Table 2 of R29 allows it. Every typed target is one of them; the index rule of
R30 concerns the block. -/
def Targets.noneAtAll (t : Targets) : Bool := t.t0 == none && t.t1 == none && t.t2 == none && t.t3 == none

/-- One producer names a slot or register at most once (R30). -/
def Targets.distinct (t : Targets) : Bool :=
  let l := [t.t0, t.t1, t.t2, t.t3].filterMap id
  l.Nodup

/-- A result of scalar kind goes to no v register, one of vector kind to no g register and no p slot (R36). -/
def Target.takes (vec : Bool) : Target → Bool
  | .greg _ => !vec
  | .vreg _ => vec
  | .slot s _ => !(vec && s == .p)

/-- The targets of a form whose result is `none`, scalar (`some false`) or vector (`some true`). -/
def Targets.ok (t : Targets) (res : Option Bool) : Bool :=
  match res with
  | none => t.noneAtAll
  | some v => t.distinct && [t.t0, t.t1, t.t2, t.t3].all fun x => x.all (Target.takes v)

/-- What a form does with field Z of formats A, M, B and E. -/
inductive ZUse where
  | zero | full | low16 | low5 | ctrl | cvt | vld | hwait | dapp | rfe
  deriving DecidableEq, Repr

/-- Control register numbers that name a register (R103). -/
def ctrlNumber (n : Nat) : Bool :=
  n ≤ 0x0B || (0x20 ≤ n && n ≤ 0x2B) || (0x30 ≤ n && n ≤ 0x38) || (0x3C ≤ n && n ≤ 0x3E) || (0x40 ≤ n && n ≤ 0x4F)

/-- A legal format tag: 1 to 12 (R122). -/
def tagNumber (n : Nat) : Bool := 1 ≤ n && n ≤ 12

/-- The values of Z a form accepts. -/
def ZUse.ok (u : ZUse) (z : BitVec 24) : Bool :=
  let n := z.toNat
  match u with
  | .zero => n == 0
  | .full => true
  | .low16 => n < 2 ^ 16
  | .low5 => n < 2 ^ 5
  | .ctrl => n < 2 ^ 8 && ctrlNumber n
  | .cvt => n < 2 ^ 8 && tagNumber (n % 16) && n / 16 ≤ 4
  | .vld => tagNumber (n / 2 ^ 20)
  | .hwait => n == 0 || n == 2 ^ 20
  | .dapp => n % 2 ^ 20 == 0 && n / 2 ^ 20 < 8
  | .rfe => n ≤ 1

/-- GM = 11 is reserved (R25). -/
def Guard.ok (g : Guard) : Bool := g != .reserved

/-- WD as the two bits of the word (R27). -/
def Width.code : Width → Nat
  | .d => 0
  | .w => 1
  | .h => 2
  | .b => 3

def FmtA.ok (f : FmtA) (wds xfs : List Nat) (z : ZUse) (res : Option Bool) : Bool :=
  f.gm.ok && wds.contains f.wd.code && xfs.contains f.xf.toNat && z.ok f.z && f.t.ok res

def FmtK.ok (f : FmtK) : Bool := f.gm.ok && ({ t0 := f.t0, t1 := f.t1 } : Targets).ok (some false)

def FmtG.ok (f : FmtG) : Bool := f.gm.ok && f.t.ok (some f.vec) && (!f.vec || f.reg.toNat < 8)

/-- `mem` is a MEM form, `rx` says whether the form admits RX (R25, R26). -/
def FmtM.ok (f : FmtM) (mem rx : Bool) (z : ZUse) (res : Option Bool) : Bool :=
  f.gm.ok && z.ok f.z && f.t.ok res && (!f.rx || rx) && (mem || (!f.ord && !f.mig)) && !(f.rx && f.ord)

def FmtB.ok (f : FmtB) (call : Bool) (z : ZUse) : Bool :=
  f.gm.ok && z.ok f.z && ({ t0 := f.t0, t1 := f.t1 } : Targets).ok (if call then some false else none)

def FmtE.ok (f : FmtE) (z : ZUse) (res : Option Bool) : Bool := f.gm.ok && z.ok f.z && f.t.ok res

def FmtS.ok (f : FmtS) (z : ZUse) (res : Option Bool) : Bool := f.gm.ok && z.ok f.z && f.t.ok res

/-- Core, context, cluster, partition, queue and die numbers of the module (R7, R8, R13, R21). -/
def coreOk (k : Nat) : Bool := k < 4608
def ctxOk (c : Nat) : Bool := c < 16
def clusterOk (k : Nat) : Bool := k < 576
def partOk (p : Nat) : Bool := p < 64
def portOk (p : Nat) : Bool := p < 2
def queueOk (q : Nat) : Bool := q < 8192

def ReqPath.ok : ReqPath → Bool
  | .mailbox p => portOk p
  | .ring k => clusterOk k

def Source.ok : Source → Bool
  | .ni k => coreOk k
  | .engine k e => clusterOk k && decide (e < 3)

def Home.ok : Home → Bool
  | .pool k => coreOk k
  | .far l => l < 32

/-- The terms that name a word the scanner accepts, or a device step the module can take. -/
def Instr.wellFormed : Instr → Bool
  | .add f => f.ok [0, 1, 2, 3] [0] .zero (some false)
  | .sub f => f.ok [0, 1, 2, 3] [0] .zero (some false)
  | .mul f => f.ok [0, 1, 2, 3] [0] .zero (some false)
  | .mulh f => f.ok [0, 1, 2, 3] [0] .zero (some false)
  | .mulhu f => f.ok [0, 1, 2, 3] [0] .zero (some false)
  | .div f => f.ok [0, 1, 2, 3] [0] .zero (some false)
  | .divu f => f.ok [0, 1, 2, 3] [0] .zero (some false)
  | .rem f => f.ok [0, 1, 2, 3] [0] .zero (some false)
  | .remu f => f.ok [0, 1, 2, 3] [0] .zero (some false)
  | .min f => f.ok [0, 1, 2, 3] [0] .zero (some false)
  | .max f => f.ok [0, 1, 2, 3] [0] .zero (some false)
  | .minu f => f.ok [0, 1, 2, 3] [0] .zero (some false)
  | .maxu f => f.ok [0, 1, 2, 3] [0] .zero (some false)
  | .neg f => f.ok [0, 1, 2, 3] [0] .zero (some false)
  | .abs f => f.ok [0, 1, 2, 3] [0] .zero (some false)
  | .addi f => f.ok [0, 1, 2, 3] [0] .full (some false)
  | .muli f => f.ok [0, 1, 2, 3] [0] .full (some false)
  | .andi f => f.ok [0, 1, 2, 3] [0] .full (some false)
  | .ori f => f.ok [0, 1, 2, 3] [0] .full (some false)
  | .xori f => f.ok [0, 1, 2, 3] [0] .full (some false)
  | .shli f => f.ok [0, 1, 2, 3] [0] .full (some false)
  | .shri f => f.ok [0, 1, 2, 3] [0] .full (some false)
  | .sari f => f.ok [0, 1, 2, 3] [0] .full (some false)
  | .ceqi f => f.ok [0, 1, 2, 3] [0] .full (some false)
  | .cnei f => f.ok [0, 1, 2, 3] [0] .full (some false)
  | .clti f => f.ok [0, 1, 2, 3] [0] .full (some false)
  | .clei f => f.ok [0, 1, 2, 3] [0] .full (some false)
  | .cltui f => f.ok [0, 1, 2, 3] [0] .full (some false)
  | .cleui f => f.ok [0, 1, 2, 3] [0] .full (some false)
  | .lea f => f.ok [0, 1, 2, 3] [0, 1, 2, 3] .full (some false)
  | .and f => f.ok [0, 1, 2, 3] [0] .zero (some false)
  | .or f => f.ok [0, 1, 2, 3] [0] .zero (some false)
  | .xor f => f.ok [0, 1, 2, 3] [0] .zero (some false)
  | .not f => f.ok [0, 1, 2, 3] [0] .zero (some false)
  | .shl f => f.ok [0, 1, 2, 3] [0] .zero (some false)
  | .shr f => f.ok [0, 1, 2, 3] [0] .zero (some false)
  | .sar f => f.ok [0, 1, 2, 3] [0] .zero (some false)
  | .rot f => f.ok [0, 1, 2, 3] [0] .zero (some false)
  | .clz f => f.ok [0, 1, 2, 3] [0] .zero (some false)
  | .ctz f => f.ok [0, 1, 2, 3] [0] .zero (some false)
  | .popc f => f.ok [0, 1, 2, 3] [0] .zero (some false)
  | .bfx f => f.ok [0, 1, 2, 3] [0] .zero (some false)
  | .bfi f => f.ok [0, 1, 2, 3] [0] .zero (some false)
  | .sext f => f.ok [0, 1, 2, 3] [0] .zero (some false)
  | .zext f => f.ok [0, 1, 2, 3] [0] .zero (some false)
  | .ceq f => f.ok [0, 1, 2, 3] [0] .zero (some false)
  | .cne f => f.ok [0, 1, 2, 3] [0] .zero (some false)
  | .clt f => f.ok [0, 1, 2, 3] [0] .zero (some false)
  | .cle f => f.ok [0, 1, 2, 3] [0] .zero (some false)
  | .cltu f => f.ok [0, 1, 2, 3] [0] .zero (some false)
  | .cleu f => f.ok [0, 1, 2, 3] [0] .zero (some false)
  | .pand f => f.ok [0] [0] .zero (some false)
  | .por f => f.ok [0] [0] .zero (some false)
  | .pxor f => f.ok [0] [0] .zero (some false)
  | .pnot f => f.ok [0] [0] .zero (some false)
  | .ppack f => f.ok [0] [0, 1, 2, 3, 4, 5, 6, 7, 8, 9, 10, 11, 12, 13, 14, 15] .zero (some false)
  | .pbit f => f.ok [0] [0, 1, 2, 3, 4, 5, 6, 7, 8, 9, 10, 11, 12, 13, 14, 15] .zero (some false)
  | .sel f => f.ok [0, 1, 2, 3] [0] .zero (some false)
  | .isnull f => f.ok [0] [0] .zero (some false)
  | .mov f => f.ok [0] [0] .zero (some false)
  | .movi f => f.ok
  | .movhi f => f.ok [0] [0] .low16 (some false)
  | .null f => f.ok [0] [0] .zero (some false)
  | .get f => f.ok
  | .mfc f => f.ok [0] [0] .ctrl (some false)
  | .mtc f => f.ok [0] [0] .ctrl none
  | .gtid f => f.ok [0] [0] .zero (some false)
  | .core f => f.ok [0] [0] .zero (some false)
  | .clk f => f.ok [0] [0] .zero (some false)
  | .sigchk f => f.ok [0] [0] .zero (some false)
  | .fadd f => f.ok [0, 1] [0, 1, 2, 3, 4] .zero (some false)
  | .fsub f => f.ok [0, 1] [0, 1, 2, 3, 4] .zero (some false)
  | .fmul f => f.ok [0, 1] [0, 1, 2, 3, 4] .zero (some false)
  | .fdiv f => f.ok [0, 1] [0, 1, 2, 3, 4] .zero (some false)
  | .fsqrt f => f.ok [0, 1] [0, 1, 2, 3, 4] .zero (some false)
  | .fma f => f.ok [0, 1] [0, 1, 2, 3, 4] .zero (some false)
  | .fmin f => f.ok [0, 1] [0] .zero (some false)
  | .fmax f => f.ok [0, 1] [0] .zero (some false)
  | .fneg f => f.ok [0, 1] [0] .zero (some false)
  | .fabs f => f.ok [0, 1] [0] .zero (some false)
  | .fceq f => f.ok [0, 1] [0] .zero (some false)
  | .fclt f => f.ok [0, 1] [0] .zero (some false)
  | .fcle f => f.ok [0, 1] [0] .zero (some false)
  | .fcun f => f.ok [0, 1] [0] .zero (some false)
  | .cvt f => f.ok [0] [1, 2, 3, 4, 5, 6, 7, 8, 9, 10, 11, 12] .cvt (some false)
  | .bra f => f.ok false .full
  | .jmp f => f.ok false .zero
  | .call f => f.ok true .full
  | .ret f => f.ok false .zero
  | .tend f => f.ok false .zero
  | .trap f => f.ok false .full
  | .mig f => f.ok false .zero
  | .fork f => f.ok .full (some false)
  | .join f => f.ok .zero (some false)
  | .jwait f => f.ok .zero (some false)
  | .pause f => f.ok .full (some false)
  | .rngopen f => f.ok .zero (some false)
  | .rngdraw f => f.ok .zero (some false)
  | .rngclose f => f.ok .zero (some false)
  | .vadd f => f.ok [0] [1, 2, 3, 4, 5, 6, 7, 8, 11] .zero (some true)
  | .vsub f => f.ok [0] [1, 2, 3, 4, 5, 6, 7, 8, 11] .zero (some true)
  | .vmul f => f.ok [0] [1, 2, 3, 4, 5, 6, 7, 8, 11] .zero (some true)
  | .vfma f => f.ok [0] [1, 2, 3, 4, 5, 6, 7, 8, 11] .zero (some true)
  | .vmin f => f.ok [0] [1, 2, 3, 4, 5, 6, 7, 8, 11] .zero (some true)
  | .vmax f => f.ok [0] [1, 2, 3, 4, 5, 6, 7, 8, 11] .zero (some true)
  | .vabs f => f.ok [0] [1, 2, 3, 4, 5, 6, 7, 8, 11] .zero (some true)
  | .vneg f => f.ok [0] [1, 2, 3, 4, 5, 6, 7, 8, 11] .zero (some true)
  | .vdiv f => f.ok [0] [5, 6, 7, 8] .zero (some true)
  | .vsqrt f => f.ok [0] [5, 6, 7, 8] .zero (some true)
  | .vcmp f => f.ok [0] [0, 1, 2, 3, 4, 5, 6, 7, 8, 9] .zero (some false)
  | .vsel f => f.ok [0] [1, 2, 3, 4, 5, 6, 7, 8, 9, 10, 11, 12] .zero (some true)
  | .vmask f => f.ok [0] [0] .zero (some true)
  | .vtmul f => f.ok [0] [12] .zero (some true)
  | .vtadd f => f.ok [0] [12] .zero (some true)
  | .vcvt f => f.ok [0] [1, 2, 3, 4, 5, 6, 7, 8, 9, 10, 11, 12] .zero (some true)
  | .vscale f => f.ok [0] [5, 6, 7, 8, 9, 10] .zero (some true)
  | .vdot f => f.ok [0] [1, 2, 3, 4, 5, 6, 7, 8] .zero (some false)
  | .vred f => f.ok [0] [1, 2, 3, 4, 5, 6, 7, 8, 11] .zero (some false)
  | .vperm f => f.ok [0] [0] .full (some true)
  | .vbcast f => f.ok [0] [1, 2, 3, 4, 5, 6, 7, 8, 9, 10, 11, 12] .zero (some true)
  | .vext f => f.ok [0] [0] .low5 (some false)
  | .vins f => f.ok [0] [0] .low5 (some true)
  | .vtag f => f.ok [0] [0, 1, 2, 3, 4, 5, 6, 7, 8, 9, 10, 11, 12] .zero (some true)
  | .ldb f => f.ok true true .full (some false)
  | .ldh f => f.ok true true .full (some false)
  | .ldw f => f.ok true true .full (some false)
  | .ldd f => f.ok true true .full (some false)
  | .ldbu f => f.ok true true .full (some false)
  | .ldhu f => f.ok true true .full (some false)
  | .ldwu f => f.ok true true .full (some false)
  | .stb f => f.ok true true .full none
  | .sth f => f.ok true true .full none
  | .stw f => f.ok true true .full none
  | .std f => f.ok true true .full none
  | .vld f => f.ok true true .vld (some true)
  | .vst f => f.ok true true .full none
  | .vldg f => f.ok true true .vld (some true)
  | .vsts f => f.ok true true .full none
  | .ldf f => f.ok false false .full (some false)
  | .lde f => f.ok false false .full (some false)
  | .stf f => f.ok false false .full none
  | .sts f => f.ok false false .full none
  | .feset f => f.ok false false .full none
  | .feclr f => f.ok false false .full none
  | .feget f => f.ok false false .full (some false)
  | .fence f => f.ok false false .zero (some false)
  | .aadd f => f.ok false false .full (some false)
  | .amin f => f.ok false false .full (some false)
  | .amax f => f.ok false false .full (some false)
  | .aminu f => f.ok false false .full (some false)
  | .amaxu f => f.ok false false .full (some false)
  | .aand f => f.ok false false .full (some false)
  | .aor f => f.ok false false .full (some false)
  | .axor f => f.ok false false .full (some false)
  | .axch f => f.ok false false .full (some false)
  | .acas f => f.ok false false .full (some false)
  | .afadd f => f.ok false false .full (some false)
  | .pfill f => f.ok false true .full none
  | .pgstat f => f.ok false false .full (some false)
  | .tlbinv f => f.ok false false .full none
  | .hwait f => f.ok .hwait (some false)
  | .htest f => f.ok .zero (some false)
  | .hcancel f => f.ok .zero (some false)
  | .cpy f => f.ok .zero (some false)
  | .cpyx f => f.ok .zero (some false)
  | .cpys f => f.ok .zero (some false)
  | .tmul f => f.ok .zero (some false)
  | .tmv f => f.ok .zero (some false)
  | .tadd f => f.ok .zero (some false)
  | .tasm f => f.ok .zero (some false)
  | .ttype f => f.ok .zero (some false)
  | .tfree f => f.ok .zero (some false)
  | .tcopy f => f.ok .zero (some false)
  | .ttrans f => f.ok .zero (some false)
  | .tsolve f => f.ok .zero (some false)
  | .tchol f => f.ok .zero (some false)
  | .tresume f => f.ok .zero (some false)
  | .dvar f => f.ok .zero (some false)
  | .dapp f => f.ok .dapp (some false)
  | .dnot f => f.ok .zero (some false)
  | .dite f => f.ok .zero (some false)
  | .dres f => f.ok .zero (some false)
  | .dexq f => f.ok .zero (some false)
  | .dcnt f => f.ok .zero (some false)
  | .dref f => f.ok .zero (some false)
  | .dunref f => f.ok .zero (some false)
  | .dgc f => f.ok .zero (some false)
  | .dsize f => f.ok .zero (some false)
  | .dresume f => f.ok .zero (some false)
  | .rsinit f => f.ok .zero (some false)
  | .rsbegin f => f.ok .zero (some false)
  | .rsnext f => f.ok .zero (some false)
  | .rsread f => f.ok .zero (some true)
  | .rsput f => f.ok .zero (some false)
  | .rsstat f => f.ok .zero (some false)
  | .rfe f => f.ok .rfe none
  | .bkpt f => f.ok .zero none
  | .halt f => f.ok .zero none
  | .blockFetch core' ctx' => coreOk core' && ctxOk ctx'
  | .codeCacheFill core' ctx' => coreOk core' && ctxOk ctx'
  | .resultDelivery core' ctx' => coreOk core' && ctxOk ctx'
  | .blockCommit core' ctx' => coreOk core' && ctxOk ctx'
  | .trapEntry core' ctx' => coreOk core' && ctxOk ctx'
  | .taskTerminate core' ctx' => coreOk core' && ctxOk ctx'
  | .taskEnd core' ctx' => coreOk core' && ctxOk ctx'
  | .waitRetry core' ctx' => coreOk core' && ctxOk ctx'
  | .spinExpiry core' ctx' => coreOk core' && ctxOk ctx'
  | .parkAttempt core' ctx' => coreOk core' && ctxOk ctx'
  | .parkWriteout core' ctx' => coreOk core' && ctxOk ctx'
  | .parkSlotRetryExpiry core' ctx' => coreOk core' && ctxOk ctx'
  | .wakeDelivery core' => coreOk core'
  | .wlimitExpiry core' pslot' => coreOk core' && decide (pslot' < 7269)
  | .waitCancel core' => coreOk core'
  | .findWork core' ctx' => coreOk core' && ctxOk ctx'
  | .stealAttempt core' ctx' => coreOk core' && ctxOk ctx'
  | .stealBackoffExpiry core' ctx' => coreOk core' && ctxOk ctx'
  | .rootPlacement _ => true
  | .migrationArrival core' => coreOk core'
  | .migrationNack core' ctx' => coreOk core' && ctxOk ctx'
  | .migrationRetryExpiry core' ctx' => coreOk core' && ctxOk ctx'
  | .replyArrival core' ctx' => coreOk core' && ctxOk ctx'
  | .pauseExpiry core' ctx' => coreOk core' && ctxOk ctx'
  | .poolScrub core' word' => coreOk core' && decide (word' < 491520)
  | .sendNonRelaxed core' ctx' => coreOk core' && ctxOk ctx'
  | .sendRelaxed core' ctx' _ => coreOk core' && ctxOk ctx'
  | .arrive source' home' => source'.ok && home'.ok
  | .perform home' => home'.ok
  | .replay cluster' _ => clusterOk cluster'
  | .acknowledge core' ctx' => coreOk core' && ctxOk ctx'
  | .faultRecordPost cluster' => clusterOk cluster'
  | .faultPostRetryExpiry core' ctx' => coreOk core' && ctxOk ctx'
  | .engineJobResolve cluster' slot' => clusterOk cluster' && decide (slot' < 64)
  | .mapExecutable cluster' => clusterOk cluster'
  | .withdrawExecutable cluster' => clusterOk cluster'
  | .pfillRelaxedWalk core' ctx' => coreOk core' && ctxOk ctx'
  | .queueReservationExpiry cluster' slot' => clusterOk cluster' && decide (slot' < 64)
  | .tmeStep cluster' => clusterOk cluster'
  | .ddeStep cluster' => clusterOk cluster'
  | .copyFrame cluster' => clusterOk cluster'
  | .cpyxChunk cluster' chunk' => clusterOk cluster' && decide (chunk' < 16)
  | .cpyxFinish cluster' => clusterOk cluster'
  | .eclipseRaise part' _ => partOk part'
  | .stopAreaWrite part' => partOk part'
  | .preemptGraceExpiry part' => partOk part'
  | .preemptAbortExpiry part' => partOk part'
  | .saveRecordWrite part' => partOk part'
  | .saveHeaderWrite part' => partOk part'
  | .containment umbra' => decide (umbra' < 64)
  | .umbraFence umbra' => decide (umbra' < 64)
  | .umbraReset umbra' => decide (umbra' < 64)
  | .containmentNotice umbra' => decide (umbra' < 64)
  | .nackReceived core' ctx' => coreOk core' && ctxOk ctx'
  | .doorbell port' queue' _ => portOk port' && queueOk queue'
  | .peerDoorbell link' queue' _ => decide (link' < 8) && queueOk queue'
  | .peerWrite link' _ _ => decide (link' < 8)
  | .launchEntry queue' => queueOk queue'
  | .launchCompletion _ => true
  | .msixUnmask port' vec' => portOk port' && decide (vec' < 64)
  | .statRead port' => portOk port'
  | .eventRead port' => portOk port'
  | .mailboxWrite port' off' _ => portOk port' && decide (off' < 4096)
  | .createPartition path' => path'.ok
  | .destroyPartition path' => path'.ok
  | .setQueue path' => path'.ok
  | .preemptPartition path' => path'.ok
  | .resumePartition path' => path'.ok
  | .setTimeSlotTables path' => path'.ok
  | .setUmbrae path' => path'.ok
  | .terminateTask path' => path'.ok
  | .readStartRecord path' => path'.ok
  | .attestationReport path' => path'.ok
  | .raiseEclipseLine path' => path'.ok
  | .releaseEclipseLine path' => path'.ok
  | .attach path' => path'.ok
  | .detach path' => path'.ok
  | .setBreakpoint path' => path'.ok
  | .releaseContext path' => path'.ok
  | .releasePartition path' => path'.ok
  | .readContext path' => path'.ok
  | .writeContext path' => path'.ok
  | .readJobQueue path' => path'.ok
  | .readWakeTable path' => path'.ok
  | .readCopyTrace path' => path'.ok
  | .timeSlotFrame => true
  | .moduleStart outcomes => decide (outcomes.length ≤ 12)
  | .dieAbove95 die' => decide (die' < 8)
  | .dieBackAt90 => true
  | .dieAbove105 die' => decide (die' < 8)
  | .overtempPowerRemoval => true
  | .clock => true
  | .unknownOperation path' _ => path'.ok

end Sys2Proof
end

