-- ==== Sys2Proof/Decode.lean ====
section
/-! DEFINITION. The opcode map of Table 9 (R44), the run-time decoder (R49), which ignores reserved bits, and the
encoder written from the same tables. -/

namespace Sys2Proof

/-- The six formats of R31; `s` is format E with LW = 63 (R32). -/
inductive Fmt where
  | a | k | g | m | b | e | s
  deriving DecidableEq, Repr

/-- What Table 9 says of a form. A slot is `none` (unused), `some false` (scalar) or `some true` (vector); `res`
likewise for the result, a GET with the vector flag set being vector whatever `res` says (R36). -/
structure FormInfo where
  op : Nat
  sub : Nat
  fmt : Fmt
  a : Option Bool := none
  b : Option Bool := none
  c : Option Bool := none
  res : Option Bool := none
  wds : List Nat := [0]
  xfs : List Nat := [0]
  z : ZUse := .zero
  irr : Bool := false
  mem : Bool := false
  store : Bool := false
  exit : Bool := false
  rx : Bool := false
  deriving DecidableEq, Repr

/-- The row of Table 9 for a form; a device step has none. -/
def Instr.info : Instr → Option FormInfo
  | .add _ => some { op := 0x01, sub := 0, fmt := .a, a := some false, b := some false, res := some false, wds := [0, 1, 2, 3] }
  | .sub _ => some { op := 0x01, sub := 1, fmt := .a, a := some false, b := some false, res := some false, wds := [0, 1, 2, 3] }
  | .mul _ => some { op := 0x01, sub := 2, fmt := .a, a := some false, b := some false, res := some false, wds := [0, 1, 2, 3] }
  | .mulh _ => some { op := 0x01, sub := 3, fmt := .a, a := some false, b := some false, res := some false, wds := [0, 1, 2, 3] }
  | .mulhu _ => some { op := 0x01, sub := 4, fmt := .a, a := some false, b := some false, res := some false, wds := [0, 1, 2, 3] }
  | .div _ => some { op := 0x01, sub := 5, fmt := .a, a := some false, b := some false, res := some false, wds := [0, 1, 2, 3] }
  | .divu _ => some { op := 0x01, sub := 6, fmt := .a, a := some false, b := some false, res := some false, wds := [0, 1, 2, 3] }
  | .rem _ => some { op := 0x01, sub := 7, fmt := .a, a := some false, b := some false, res := some false, wds := [0, 1, 2, 3] }
  | .remu _ => some { op := 0x01, sub := 8, fmt := .a, a := some false, b := some false, res := some false, wds := [0, 1, 2, 3] }
  | .min _ => some { op := 0x01, sub := 9, fmt := .a, a := some false, b := some false, res := some false, wds := [0, 1, 2, 3] }
  | .max _ => some { op := 0x01, sub := 10, fmt := .a, a := some false, b := some false, res := some false, wds := [0, 1, 2, 3] }
  | .minu _ => some { op := 0x01, sub := 11, fmt := .a, a := some false, b := some false, res := some false, wds := [0, 1, 2, 3] }
  | .maxu _ => some { op := 0x01, sub := 12, fmt := .a, a := some false, b := some false, res := some false, wds := [0, 1, 2, 3] }
  | .neg _ => some { op := 0x01, sub := 13, fmt := .a, a := some false, res := some false, wds := [0, 1, 2, 3] }
  | .abs _ => some { op := 0x01, sub := 14, fmt := .a, a := some false, res := some false, wds := [0, 1, 2, 3] }
  | .addi _ => some { op := 0x02, sub := 0, fmt := .a, a := some false, res := some false, wds := [0, 1, 2, 3], z := .full }
  | .muli _ => some { op := 0x02, sub := 1, fmt := .a, a := some false, res := some false, wds := [0, 1, 2, 3], z := .full }
  | .andi _ => some { op := 0x02, sub := 2, fmt := .a, a := some false, res := some false, wds := [0, 1, 2, 3], z := .full }
  | .ori _ => some { op := 0x02, sub := 3, fmt := .a, a := some false, res := some false, wds := [0, 1, 2, 3], z := .full }
  | .xori _ => some { op := 0x02, sub := 4, fmt := .a, a := some false, res := some false, wds := [0, 1, 2, 3], z := .full }
  | .shli _ => some { op := 0x02, sub := 5, fmt := .a, a := some false, res := some false, wds := [0, 1, 2, 3], z := .full }
  | .shri _ => some { op := 0x02, sub := 6, fmt := .a, a := some false, res := some false, wds := [0, 1, 2, 3], z := .full }
  | .sari _ => some { op := 0x02, sub := 7, fmt := .a, a := some false, res := some false, wds := [0, 1, 2, 3], z := .full }
  | .ceqi _ => some { op := 0x02, sub := 8, fmt := .a, a := some false, res := some false, wds := [0, 1, 2, 3], z := .full }
  | .cnei _ => some { op := 0x02, sub := 9, fmt := .a, a := some false, res := some false, wds := [0, 1, 2, 3], z := .full }
  | .clti _ => some { op := 0x02, sub := 10, fmt := .a, a := some false, res := some false, wds := [0, 1, 2, 3], z := .full }
  | .clei _ => some { op := 0x02, sub := 11, fmt := .a, a := some false, res := some false, wds := [0, 1, 2, 3], z := .full }
  | .cltui _ => some { op := 0x02, sub := 12, fmt := .a, a := some false, res := some false, wds := [0, 1, 2, 3], z := .full }
  | .cleui _ => some { op := 0x02, sub := 13, fmt := .a, a := some false, res := some false, wds := [0, 1, 2, 3], z := .full }
  | .lea _ => some { op := 0x02, sub := 14, fmt := .a, a := some false, b := some false, res := some false, wds := [0, 1, 2, 3], xfs := [0, 1, 2, 3], z := .full }
  | .and _ => some { op := 0x03, sub := 0, fmt := .a, a := some false, b := some false, res := some false, wds := [0, 1, 2, 3] }
  | .or _ => some { op := 0x03, sub := 1, fmt := .a, a := some false, b := some false, res := some false, wds := [0, 1, 2, 3] }
  | .xor _ => some { op := 0x03, sub := 2, fmt := .a, a := some false, b := some false, res := some false, wds := [0, 1, 2, 3] }
  | .not _ => some { op := 0x03, sub := 3, fmt := .a, a := some false, res := some false, wds := [0, 1, 2, 3] }
  | .shl _ => some { op := 0x03, sub := 4, fmt := .a, a := some false, b := some false, res := some false, wds := [0, 1, 2, 3] }
  | .shr _ => some { op := 0x03, sub := 5, fmt := .a, a := some false, b := some false, res := some false, wds := [0, 1, 2, 3] }
  | .sar _ => some { op := 0x03, sub := 6, fmt := .a, a := some false, b := some false, res := some false, wds := [0, 1, 2, 3] }
  | .rot _ => some { op := 0x03, sub := 7, fmt := .a, a := some false, b := some false, res := some false, wds := [0, 1, 2, 3] }
  | .clz _ => some { op := 0x03, sub := 8, fmt := .a, a := some false, res := some false, wds := [0, 1, 2, 3] }
  | .ctz _ => some { op := 0x03, sub := 9, fmt := .a, a := some false, res := some false, wds := [0, 1, 2, 3] }
  | .popc _ => some { op := 0x03, sub := 10, fmt := .a, a := some false, res := some false, wds := [0, 1, 2, 3] }
  | .bfx _ => some { op := 0x03, sub := 11, fmt := .a, a := some false, b := some false, res := some false, wds := [0, 1, 2, 3] }
  | .bfi _ => some { op := 0x03, sub := 12, fmt := .a, a := some false, b := some false, c := some false, res := some false, wds := [0, 1, 2, 3] }
  | .sext _ => some { op := 0x03, sub := 13, fmt := .a, a := some false, res := some false, wds := [0, 1, 2, 3] }
  | .zext _ => some { op := 0x03, sub := 14, fmt := .a, a := some false, res := some false, wds := [0, 1, 2, 3] }
  | .ceq _ => some { op := 0x04, sub := 0, fmt := .a, a := some false, b := some false, res := some false, wds := [0, 1, 2, 3] }
  | .cne _ => some { op := 0x04, sub := 1, fmt := .a, a := some false, b := some false, res := some false, wds := [0, 1, 2, 3] }
  | .clt _ => some { op := 0x04, sub := 2, fmt := .a, a := some false, b := some false, res := some false, wds := [0, 1, 2, 3] }
  | .cle _ => some { op := 0x04, sub := 3, fmt := .a, a := some false, b := some false, res := some false, wds := [0, 1, 2, 3] }
  | .cltu _ => some { op := 0x04, sub := 4, fmt := .a, a := some false, b := some false, res := some false, wds := [0, 1, 2, 3] }
  | .cleu _ => some { op := 0x04, sub := 5, fmt := .a, a := some false, b := some false, res := some false, wds := [0, 1, 2, 3] }
  | .pand _ => some { op := 0x04, sub := 6, fmt := .a, a := some false, b := some false, res := some false }
  | .por _ => some { op := 0x04, sub := 7, fmt := .a, a := some false, b := some false, res := some false }
  | .pxor _ => some { op := 0x04, sub := 8, fmt := .a, a := some false, b := some false, res := some false }
  | .pnot _ => some { op := 0x04, sub := 9, fmt := .a, a := some false, res := some false }
  | .ppack _ => some { op := 0x04, sub := 10, fmt := .a, a := some false, b := some false, res := some false, xfs := [0, 1, 2, 3, 4, 5, 6, 7, 8, 9, 10, 11, 12, 13, 14, 15] }
  | .pbit _ => some { op := 0x04, sub := 11, fmt := .a, a := some false, res := some false, xfs := [0, 1, 2, 3, 4, 5, 6, 7, 8, 9, 10, 11, 12, 13, 14, 15] }
  | .sel _ => some { op := 0x04, sub := 12, fmt := .a, a := some false, b := some false, c := some false, res := some false, wds := [0, 1, 2, 3] }
  | .isnull _ => some { op := 0x04, sub := 13, fmt := .a, a := some false, res := some false }
  | .mov _ => some { op := 0x05, sub := 0, fmt := .a, a := some false, res := some false }
  | .movi _ => some { op := 0x05, sub := 1, fmt := .k, res := some false }
  | .movhi _ => some { op := 0x05, sub := 2, fmt := .a, a := some false, res := some false, z := .low16 }
  | .null _ => some { op := 0x05, sub := 3, fmt := .a, res := some false }
  | .get _ => some { op := 0x05, sub := 4, fmt := .g, res := some false }
  | .mfc _ => some { op := 0x05, sub := 5, fmt := .a, res := some false, z := .ctrl }
  | .mtc _ => some { op := 0x05, sub := 6, fmt := .a, a := some false, z := .ctrl, irr := true }
  | .gtid _ => some { op := 0x05, sub := 7, fmt := .a, res := some false }
  | .core _ => some { op := 0x05, sub := 8, fmt := .a, res := some false }
  | .clk _ => some { op := 0x05, sub := 9, fmt := .a, res := some false }
  | .sigchk _ => some { op := 0x05, sub := 10, fmt := .a, a := some false, res := some false }
  | .fadd _ => some { op := 0x06, sub := 0, fmt := .a, a := some false, b := some false, res := some false, wds := [0, 1], xfs := [0, 1, 2, 3, 4] }
  | .fsub _ => some { op := 0x06, sub := 1, fmt := .a, a := some false, b := some false, res := some false, wds := [0, 1], xfs := [0, 1, 2, 3, 4] }
  | .fmul _ => some { op := 0x06, sub := 2, fmt := .a, a := some false, b := some false, res := some false, wds := [0, 1], xfs := [0, 1, 2, 3, 4] }
  | .fdiv _ => some { op := 0x06, sub := 3, fmt := .a, a := some false, b := some false, res := some false, wds := [0, 1], xfs := [0, 1, 2, 3, 4] }
  | .fsqrt _ => some { op := 0x06, sub := 4, fmt := .a, a := some false, res := some false, wds := [0, 1], xfs := [0, 1, 2, 3, 4] }
  | .fma _ => some { op := 0x06, sub := 5, fmt := .a, a := some false, b := some false, c := some false, res := some false, wds := [0, 1], xfs := [0, 1, 2, 3, 4] }
  | .fmin _ => some { op := 0x06, sub := 6, fmt := .a, a := some false, b := some false, res := some false, wds := [0, 1] }
  | .fmax _ => some { op := 0x06, sub := 7, fmt := .a, a := some false, b := some false, res := some false, wds := [0, 1] }
  | .fneg _ => some { op := 0x06, sub := 8, fmt := .a, a := some false, res := some false, wds := [0, 1] }
  | .fabs _ => some { op := 0x06, sub := 9, fmt := .a, a := some false, res := some false, wds := [0, 1] }
  | .fceq _ => some { op := 0x06, sub := 10, fmt := .a, a := some false, b := some false, res := some false, wds := [0, 1] }
  | .fclt _ => some { op := 0x06, sub := 11, fmt := .a, a := some false, b := some false, res := some false, wds := [0, 1] }
  | .fcle _ => some { op := 0x06, sub := 12, fmt := .a, a := some false, b := some false, res := some false, wds := [0, 1] }
  | .fcun _ => some { op := 0x06, sub := 13, fmt := .a, a := some false, b := some false, res := some false, wds := [0, 1] }
  | .cvt _ => some { op := 0x06, sub := 14, fmt := .a, a := some false, res := some false, xfs := [1, 2, 3, 4, 5, 6, 7, 8, 9, 10, 11, 12], z := .cvt }
  | .bra _ => some { op := 0x07, sub := 0, fmt := .b, z := .full, exit := true }
  | .jmp _ => some { op := 0x07, sub := 1, fmt := .b, a := some false, exit := true }
  | .call _ => some { op := 0x07, sub := 2, fmt := .b, res := some false, z := .full, exit := true }
  | .ret _ => some { op := 0x07, sub := 3, fmt := .b, a := some false, exit := true }
  | .tend _ => some { op := 0x07, sub := 4, fmt := .b, exit := true }
  | .trap _ => some { op := 0x07, sub := 5, fmt := .b, z := .full, exit := true }
  | .mig _ => some { op := 0x07, sub := 6, fmt := .b, a := some false, exit := true }
  | .fork _ => some { op := 0x08, sub := 0, fmt := .e, a := some false, b := some false, c := some false, res := some false, z := .full, irr := true, mem := true }
  | .join _ => some { op := 0x08, sub := 1, fmt := .e, a := some false, res := some false, irr := true, mem := true }
  | .jwait _ => some { op := 0x08, sub := 2, fmt := .e, a := some false, res := some false, mem := true }
  | .pause _ => some { op := 0x08, sub := 3, fmt := .s, res := some false, z := .full }
  | .rngopen _ => some { op := 0x08, sub := 4, fmt := .e, a := some false, res := some false, irr := true, mem := true }
  | .rngdraw _ => some { op := 0x08, sub := 5, fmt := .s, a := some false, b := some false, res := some false }
  | .rngclose _ => some { op := 0x08, sub := 6, fmt := .e, a := some false, res := some false, irr := true, mem := true }
  | .vadd _ => some { op := 0x10, sub := 0, fmt := .a, a := some true, b := some true, res := some true, xfs := [1, 2, 3, 4, 5, 6, 7, 8, 11] }
  | .vsub _ => some { op := 0x10, sub := 1, fmt := .a, a := some true, b := some true, res := some true, xfs := [1, 2, 3, 4, 5, 6, 7, 8, 11] }
  | .vmul _ => some { op := 0x10, sub := 2, fmt := .a, a := some true, b := some true, res := some true, xfs := [1, 2, 3, 4, 5, 6, 7, 8, 11] }
  | .vfma _ => some { op := 0x10, sub := 3, fmt := .a, a := some true, b := some true, c := some true, res := some true, xfs := [1, 2, 3, 4, 5, 6, 7, 8, 11] }
  | .vmin _ => some { op := 0x10, sub := 4, fmt := .a, a := some true, b := some true, res := some true, xfs := [1, 2, 3, 4, 5, 6, 7, 8, 11] }
  | .vmax _ => some { op := 0x10, sub := 5, fmt := .a, a := some true, b := some true, res := some true, xfs := [1, 2, 3, 4, 5, 6, 7, 8, 11] }
  | .vabs _ => some { op := 0x10, sub := 6, fmt := .a, a := some true, res := some true, xfs := [1, 2, 3, 4, 5, 6, 7, 8, 11] }
  | .vneg _ => some { op := 0x10, sub := 7, fmt := .a, a := some true, res := some true, xfs := [1, 2, 3, 4, 5, 6, 7, 8, 11] }
  | .vdiv _ => some { op := 0x10, sub := 8, fmt := .a, a := some true, b := some true, res := some true, xfs := [5, 6, 7, 8] }
  | .vsqrt _ => some { op := 0x10, sub := 9, fmt := .a, a := some true, res := some true, xfs := [5, 6, 7, 8] }
  | .vcmp _ => some { op := 0x10, sub := 10, fmt := .a, a := some true, b := some true, res := some false, xfs := [0, 1, 2, 3, 4, 5, 6, 7, 8, 9] }
  | .vsel _ => some { op := 0x10, sub := 11, fmt := .a, a := some true, b := some true, c := some false, res := some true, xfs := [1, 2, 3, 4, 5, 6, 7, 8, 9, 10, 11, 12] }
  | .vmask _ => some { op := 0x10, sub := 12, fmt := .a, a := some true, b := some false, res := some true }
  | .vtmul _ => some { op := 0x10, sub := 13, fmt := .a, a := some true, b := some true, res := some true, xfs := [12] }
  | .vtadd _ => some { op := 0x10, sub := 14, fmt := .a, a := some true, b := some true, res := some true, xfs := [12] }
  | .vcvt _ => some { op := 0x11, sub := 0, fmt := .a, a := some true, res := some true, xfs := [1, 2, 3, 4, 5, 6, 7, 8, 9, 10, 11, 12] }
  | .vscale _ => some { op := 0x11, sub := 1, fmt := .a, a := some true, b := some false, res := some true, xfs := [5, 6, 7, 8, 9, 10] }
  | .vdot _ => some { op := 0x11, sub := 2, fmt := .a, a := some true, b := some true, res := some false, xfs := [1, 2, 3, 4, 5, 6, 7, 8] }
  | .vred _ => some { op := 0x11, sub := 3, fmt := .a, a := some true, res := some false, xfs := [1, 2, 3, 4, 5, 6, 7, 8, 11] }
  | .vperm _ => some { op := 0x11, sub := 4, fmt := .a, a := some true, res := some true, z := .full }
  | .vbcast _ => some { op := 0x11, sub := 5, fmt := .a, a := some false, res := some true, xfs := [1, 2, 3, 4, 5, 6, 7, 8, 9, 10, 11, 12] }
  | .vext _ => some { op := 0x11, sub := 6, fmt := .a, a := some true, res := some false, z := .low5 }
  | .vins _ => some { op := 0x11, sub := 7, fmt := .a, a := some true, b := some false, res := some true, z := .low5 }
  | .vtag _ => some { op := 0x11, sub := 8, fmt := .a, a := some true, res := some true, xfs := [0, 1, 2, 3, 4, 5, 6, 7, 8, 9, 10, 11, 12] }
  | .ldb _ => some { op := 0x20, sub := 0, fmt := .m, a := some false, res := some false, z := .full, mem := true, rx := true }
  | .ldh _ => some { op := 0x20, sub := 1, fmt := .m, a := some false, res := some false, z := .full, mem := true, rx := true }
  | .ldw _ => some { op := 0x20, sub := 2, fmt := .m, a := some false, res := some false, z := .full, mem := true, rx := true }
  | .ldd _ => some { op := 0x20, sub := 3, fmt := .m, a := some false, res := some false, z := .full, mem := true, rx := true }
  | .ldbu _ => some { op := 0x20, sub := 4, fmt := .m, a := some false, res := some false, z := .full, mem := true, rx := true }
  | .ldhu _ => some { op := 0x20, sub := 5, fmt := .m, a := some false, res := some false, z := .full, mem := true, rx := true }
  | .ldwu _ => some { op := 0x20, sub := 6, fmt := .m, a := some false, res := some false, z := .full, mem := true, rx := true }
  | .stb _ => some { op := 0x20, sub := 8, fmt := .m, a := some false, b := some false, z := .full, mem := true, store := true, rx := true }
  | .sth _ => some { op := 0x20, sub := 9, fmt := .m, a := some false, b := some false, z := .full, mem := true, store := true, rx := true }
  | .stw _ => some { op := 0x20, sub := 10, fmt := .m, a := some false, b := some false, z := .full, mem := true, store := true, rx := true }
  | .std _ => some { op := 0x20, sub := 11, fmt := .m, a := some false, b := some false, z := .full, mem := true, store := true, rx := true }
  | .vld _ => some { op := 0x20, sub := 12, fmt := .m, a := some false, res := some true, z := .vld, mem := true, rx := true }
  | .vst _ => some { op := 0x20, sub := 13, fmt := .m, a := some false, b := some true, z := .full, mem := true, store := true, rx := true }
  | .vldg _ => some { op := 0x20, sub := 14, fmt := .m, a := some false, b := some true, res := some true, z := .vld, mem := true, rx := true }
  | .vsts _ => some { op := 0x20, sub := 15, fmt := .m, a := some false, b := some true, c := some true, z := .full, mem := true, store := true, rx := true }
  | .ldf _ => some { op := 0x21, sub := 0, fmt := .m, a := some false, res := some false, z := .full, mem := true }
  | .lde _ => some { op := 0x21, sub := 1, fmt := .m, a := some false, res := some false, z := .full, irr := true, mem := true }
  | .stf _ => some { op := 0x21, sub := 2, fmt := .m, a := some false, b := some false, z := .full, irr := true, mem := true }
  | .sts _ => some { op := 0x21, sub := 3, fmt := .m, a := some false, b := some false, z := .full, irr := true, mem := true }
  | .feset _ => some { op := 0x21, sub := 4, fmt := .m, a := some false, z := .full, irr := true, mem := true }
  | .feclr _ => some { op := 0x21, sub := 5, fmt := .m, a := some false, z := .full, irr := true, mem := true }
  | .feget _ => some { op := 0x21, sub := 6, fmt := .m, a := some false, res := some false, z := .full, mem := true }
  | .fence _ => some { op := 0x21, sub := 7, fmt := .m, res := some false, mem := true }
  | .aadd _ => some { op := 0x22, sub := 0, fmt := .m, a := some false, b := some false, res := some false, z := .full, irr := true, mem := true }
  | .amin _ => some { op := 0x22, sub := 1, fmt := .m, a := some false, b := some false, res := some false, z := .full, irr := true, mem := true }
  | .amax _ => some { op := 0x22, sub := 2, fmt := .m, a := some false, b := some false, res := some false, z := .full, irr := true, mem := true }
  | .aminu _ => some { op := 0x22, sub := 3, fmt := .m, a := some false, b := some false, res := some false, z := .full, irr := true, mem := true }
  | .amaxu _ => some { op := 0x22, sub := 4, fmt := .m, a := some false, b := some false, res := some false, z := .full, irr := true, mem := true }
  | .aand _ => some { op := 0x22, sub := 5, fmt := .m, a := some false, b := some false, res := some false, z := .full, irr := true, mem := true }
  | .aor _ => some { op := 0x22, sub := 6, fmt := .m, a := some false, b := some false, res := some false, z := .full, irr := true, mem := true }
  | .axor _ => some { op := 0x22, sub := 7, fmt := .m, a := some false, b := some false, res := some false, z := .full, irr := true, mem := true }
  | .axch _ => some { op := 0x22, sub := 8, fmt := .m, a := some false, b := some false, res := some false, z := .full, irr := true, mem := true }
  | .acas _ => some { op := 0x22, sub := 9, fmt := .m, a := some false, b := some false, c := some false, res := some false, z := .full, irr := true, mem := true }
  | .afadd _ => some { op := 0x22, sub := 10, fmt := .m, a := some false, b := some false, res := some false, z := .full, irr := true, mem := true }
  | .pfill _ => some { op := 0x23, sub := 0, fmt := .m, a := some false, z := .full, mem := true, rx := true }
  | .pgstat _ => some { op := 0x23, sub := 1, fmt := .m, a := some false, res := some false, z := .full, mem := true }
  | .tlbinv _ => some { op := 0x23, sub := 2, fmt := .m, a := some false, z := .full, irr := true, mem := true }
  | .hwait _ => some { op := 0x30, sub := 0, fmt := .e, a := some false, res := some false, z := .hwait, mem := true }
  | .htest _ => some { op := 0x30, sub := 1, fmt := .s, a := some false, res := some false }
  | .hcancel _ => some { op := 0x30, sub := 2, fmt := .e, a := some false, res := some false, irr := true, mem := true }
  | .cpy _ => some { op := 0x30, sub := 3, fmt := .e, a := some false, res := some false, irr := true, mem := true }
  | .cpyx _ => some { op := 0x30, sub := 4, fmt := .e, a := some false, res := some false, irr := true, mem := true }
  | .cpys _ => some { op := 0x30, sub := 5, fmt := .e, a := some false, res := some false, irr := true, mem := true }
  | .tmul _ => some { op := 0x31, sub := 0, fmt := .e, a := some false, res := some false, irr := true, mem := true }
  | .tmv _ => some { op := 0x31, sub := 1, fmt := .e, a := some false, res := some false, irr := true, mem := true }
  | .tadd _ => some { op := 0x31, sub := 2, fmt := .e, a := some false, res := some false, irr := true, mem := true }
  | .tasm _ => some { op := 0x31, sub := 3, fmt := .e, a := some false, res := some false, irr := true, mem := true }
  | .ttype _ => some { op := 0x31, sub := 4, fmt := .e, a := some false, res := some false, irr := true, mem := true }
  | .tfree _ => some { op := 0x31, sub := 5, fmt := .e, a := some false, res := some false, irr := true, mem := true }
  | .tcopy _ => some { op := 0x31, sub := 6, fmt := .e, a := some false, res := some false, irr := true, mem := true }
  | .ttrans _ => some { op := 0x31, sub := 7, fmt := .e, a := some false, res := some false, irr := true, mem := true }
  | .tsolve _ => some { op := 0x31, sub := 8, fmt := .e, a := some false, res := some false, irr := true, mem := true }
  | .tchol _ => some { op := 0x31, sub := 9, fmt := .e, a := some false, res := some false, irr := true, mem := true }
  | .tresume _ => some { op := 0x31, sub := 10, fmt := .e, a := some false, res := some false, irr := true, mem := true }
  | .dvar _ => some { op := 0x32, sub := 0, fmt := .e, a := some false, b := some false, res := some false, irr := true, mem := true }
  | .dapp _ => some { op := 0x32, sub := 1, fmt := .e, a := some false, b := some false, c := some false, res := some false, z := .dapp, irr := true, mem := true }
  | .dnot _ => some { op := 0x32, sub := 2, fmt := .e, a := some false, b := some false, res := some false, irr := true, mem := true }
  | .dite _ => some { op := 0x32, sub := 3, fmt := .e, a := some false, b := some false, c := some false, res := some false, irr := true, mem := true }
  | .dres _ => some { op := 0x32, sub := 4, fmt := .e, a := some false, b := some false, c := some false, res := some false, irr := true, mem := true }
  | .dexq _ => some { op := 0x32, sub := 5, fmt := .e, a := some false, b := some false, c := some false, res := some false, irr := true, mem := true }
  | .dcnt _ => some { op := 0x32, sub := 6, fmt := .e, a := some false, b := some false, c := some false, res := some false, irr := true, mem := true }
  | .dref _ => some { op := 0x32, sub := 7, fmt := .e, a := some false, b := some false, res := some false, irr := true, mem := true }
  | .dunref _ => some { op := 0x32, sub := 8, fmt := .e, a := some false, b := some false, res := some false, irr := true, mem := true }
  | .dgc _ => some { op := 0x32, sub := 9, fmt := .e, a := some false, res := some false, irr := true, mem := true }
  | .dsize _ => some { op := 0x32, sub := 10, fmt := .e, a := some false, b := some false, res := some false, irr := true, mem := true }
  | .dresume _ => some { op := 0x32, sub := 11, fmt := .e, a := some false, res := some false, irr := true, mem := true }
  | .rsinit _ => some { op := 0x33, sub := 0, fmt := .e, a := some false, res := some false, irr := true, mem := true }
  | .rsbegin _ => some { op := 0x33, sub := 1, fmt := .e, a := some false, res := some false, irr := true, mem := true }
  | .rsnext _ => some { op := 0x33, sub := 2, fmt := .e, a := some false, res := some false, irr := true, mem := true }
  | .rsread _ => some { op := 0x33, sub := 3, fmt := .e, a := some false, b := some false, res := some true, mem := true }
  | .rsput _ => some { op := 0x33, sub := 4, fmt := .e, a := some false, b := some false, c := some true, res := some false, irr := true, mem := true }
  | .rsstat _ => some { op := 0x33, sub := 5, fmt := .e, a := some false, res := some false, mem := true }
  | .rfe _ => some { op := 0x38, sub := 0, fmt := .s, z := .rfe, exit := true }
  | .bkpt _ => some { op := 0x38, sub := 1, fmt := .s }
  | .halt _ => some { op := 0x38, sub := 2, fmt := .s, exit := true }
  | .blockFetch _ _ => none
  | .codeCacheFill _ _ => none
  | .resultDelivery _ _ => none
  | .blockCommit _ _ => none
  | .trapEntry _ _ => none
  | .taskTerminate _ _ => none
  | .taskEnd _ _ => none
  | .waitRetry _ _ => none
  | .spinExpiry _ _ => none
  | .parkAttempt _ _ => none
  | .parkWriteout _ _ => none
  | .parkSlotRetryExpiry _ _ => none
  | .wakeDelivery _ => none
  | .wlimitExpiry _ _ => none
  | .waitCancel _ => none
  | .findWork _ _ => none
  | .stealAttempt _ _ => none
  | .stealBackoffExpiry _ _ => none
  | .rootPlacement _ => none
  | .migrationArrival _ => none
  | .migrationNack _ _ => none
  | .migrationRetryExpiry _ _ => none
  | .replyArrival _ _ => none
  | .pauseExpiry _ _ => none
  | .poolScrub _ _ => none
  | .sendNonRelaxed _ _ => none
  | .sendRelaxed _ _ _ => none
  | .arrive _ _ => none
  | .perform _ => none
  | .replay _ _ => none
  | .acknowledge _ _ => none
  | .faultRecordPost _ => none
  | .faultPostRetryExpiry _ _ => none
  | .engineJobResolve _ _ => none
  | .mapExecutable _ => none
  | .withdrawExecutable _ => none
  | .pfillRelaxedWalk _ _ => none
  | .queueReservationExpiry _ _ => none
  | .tmeStep _ => none
  | .ddeStep _ => none
  | .copyFrame _ => none
  | .cpyxChunk _ _ => none
  | .cpyxFinish _ => none
  | .eclipseRaise _ _ => none
  | .stopAreaWrite _ => none
  | .preemptGraceExpiry _ => none
  | .preemptAbortExpiry _ => none
  | .saveRecordWrite _ => none
  | .saveHeaderWrite _ => none
  | .containment _ => none
  | .umbraFence _ => none
  | .umbraReset _ => none
  | .containmentNotice _ => none
  | .nackReceived _ _ => none
  | .doorbell _ _ _ => none
  | .peerDoorbell _ _ _ => none
  | .peerWrite _ _ _ => none
  | .launchEntry _ => none
  | .launchCompletion _ => none
  | .msixUnmask _ _ => none
  | .statRead _ => none
  | .eventRead _ => none
  | .mailboxWrite _ _ _ => none
  | .createPartition _ => none
  | .destroyPartition _ => none
  | .setQueue _ => none
  | .preemptPartition _ => none
  | .resumePartition _ => none
  | .setTimeSlotTables _ => none
  | .setUmbrae _ => none
  | .terminateTask _ => none
  | .readStartRecord _ => none
  | .attestationReport _ => none
  | .raiseEclipseLine _ => none
  | .releaseEclipseLine _ => none
  | .attach _ => none
  | .detach _ => none
  | .setBreakpoint _ => none
  | .releaseContext _ => none
  | .releasePartition _ => none
  | .readContext _ => none
  | .writeContext _ => none
  | .readJobQueue _ => none
  | .readWakeTable _ => none
  | .readCopyTrace _ => none
  | .timeSlotFrame => none
  | .moduleStart _ => none
  | .dieAbove95 _ => none
  | .dieBackAt90 => none
  | .dieAbove105 _ => none
  | .overtempPowerRemoval => none
  | .clock => none
  | .unknownOperation _ _ => none

/-! Fields of a word (R25, R29). -/

def Code.op (w : Code) : Nat := (w.extractLsb' 88 8).toNat
def Code.sub (w : Code) : Nat := (w.extractLsb' 84 4).toNat
def Code.lw (w : Code) : BitVec 6 := w.extractLsb' 72 6
def Code.z (w : Code) : BitVec 24 := w.extractLsb' 0 24

/-- GM (R25). -/
def Code.gm (w : Code) : Guard :=
  match (w.extractLsb' 82 2).toNat with
  | 0 => .none
  | 1 => .onTrue
  | 2 => .onFalse
  | _ => .reserved

/-- HN = 001 (R26). -/
def Code.crit (w : Code) : Bool := w.extractLsb' 78 3 == 1#3

def Code.wd (w : Code) : Width :=
  match (w.extractLsb' 76 2).toNat with
  | 0 => .d
  | 1 => .w
  | 2 => .h
  | _ => .b

/-- A 12-bit target field (R29). -/
def readTarget (t : BitVec 12) : Option Target :=
  if t.getLsbD 11 then
    if t.getLsbD 10 then
      if t.getLsbD 4 then some (.vreg (t.extractLsb' 0 3)) else some (.greg (t.extractLsb' 0 4))
    else
      let i := t.extractLsb' 0 6
      match (t.extractLsb' 8 2).toNat with
      | 0 => some (.slot .a i)
      | 1 => some (.slot .b i)
      | 2 => some (.slot .c i)
      | _ => some (.slot .p i)
  else none

def Code.target (w : Code) (k : Nat) : Option Target := readTarget (w.extractLsb' (60 - 12 * k) 12)

def Code.targets (w : Code) : Targets :=
  { t0 := w.target 0, t1 := w.target 1, t2 := w.target 2, t3 := w.target 3 }

/-! The fields of each format (R31). -/

def Code.fmtA (w : Code) : FmtA :=
  { gm := w.gm, crit := w.crit, wd := w.wd, xf := w.extractLsb' 72 4, t := w.targets, z := w.z }
def Code.fmtK (w : Code) : FmtK :=
  { gm := w.gm, crit := w.crit, t0 := w.target 0, t1 := w.target 1, imm := w.extractLsb' 0 48 }
def Code.fmtG (w : Code) : FmtG :=
  { gm := w.gm, crit := w.crit, t := w.targets, vec := w.getLsbD 4, reg := w.extractLsb' 0 4 }
def Code.fmtM (w : Code) : FmtM :=
  { gm := w.gm, rx := w.getLsbD 81, ord := w.extractLsb' 79 2 == 1#2, mig := w.getLsbD 78,
    lsid := w.extractLsb' 72 5, t := w.targets, z := w.z }
def Code.fmtB (w : Code) : FmtB :=
  { gm := w.gm, crit := w.crit, t0 := w.target 0, t1 := w.target 1, exit := w.extractLsb' 24 3, z := w.z }
def Code.fmtE (w : Code) : FmtE := { gm := w.gm, lsid := w.extractLsb' 72 5, t := w.targets, z := w.z }
def Code.fmtS (w : Code) : FmtS := { gm := w.gm, crit := w.crit, t := w.targets, z := w.z }

/-- OP 0x01, group INTA; a SUB the table marks rsv has no form. -/
def decodeInta (w : Code) : Nat → Option Instr
  | 0 => some (.add w.fmtA)
  | 1 => some (.sub w.fmtA)
  | 2 => some (.mul w.fmtA)
  | 3 => some (.mulh w.fmtA)
  | 4 => some (.mulhu w.fmtA)
  | 5 => some (.div w.fmtA)
  | 6 => some (.divu w.fmtA)
  | 7 => some (.rem w.fmtA)
  | 8 => some (.remu w.fmtA)
  | 9 => some (.min w.fmtA)
  | 10 => some (.max w.fmtA)
  | 11 => some (.minu w.fmtA)
  | 12 => some (.maxu w.fmtA)
  | 13 => some (.neg w.fmtA)
  | 14 => some (.abs w.fmtA)
  | _ => none

/-- OP 0x02, group INTI; a SUB the table marks rsv has no form. -/
def decodeInti (w : Code) : Nat → Option Instr
  | 0 => some (.addi w.fmtA)
  | 1 => some (.muli w.fmtA)
  | 2 => some (.andi w.fmtA)
  | 3 => some (.ori w.fmtA)
  | 4 => some (.xori w.fmtA)
  | 5 => some (.shli w.fmtA)
  | 6 => some (.shri w.fmtA)
  | 7 => some (.sari w.fmtA)
  | 8 => some (.ceqi w.fmtA)
  | 9 => some (.cnei w.fmtA)
  | 10 => some (.clti w.fmtA)
  | 11 => some (.clei w.fmtA)
  | 12 => some (.cltui w.fmtA)
  | 13 => some (.cleui w.fmtA)
  | 14 => some (.lea w.fmtA)
  | _ => none

/-- OP 0x03, group LOGIC; a SUB the table marks rsv has no form. -/
def decodeLogic (w : Code) : Nat → Option Instr
  | 0 => some (.and w.fmtA)
  | 1 => some (.or w.fmtA)
  | 2 => some (.xor w.fmtA)
  | 3 => some (.not w.fmtA)
  | 4 => some (.shl w.fmtA)
  | 5 => some (.shr w.fmtA)
  | 6 => some (.sar w.fmtA)
  | 7 => some (.rot w.fmtA)
  | 8 => some (.clz w.fmtA)
  | 9 => some (.ctz w.fmtA)
  | 10 => some (.popc w.fmtA)
  | 11 => some (.bfx w.fmtA)
  | 12 => some (.bfi w.fmtA)
  | 13 => some (.sext w.fmtA)
  | 14 => some (.zext w.fmtA)
  | _ => none

/-- OP 0x04, group PRED; a SUB the table marks rsv has no form. -/
def decodePred (w : Code) : Nat → Option Instr
  | 0 => some (.ceq w.fmtA)
  | 1 => some (.cne w.fmtA)
  | 2 => some (.clt w.fmtA)
  | 3 => some (.cle w.fmtA)
  | 4 => some (.cltu w.fmtA)
  | 5 => some (.cleu w.fmtA)
  | 6 => some (.pand w.fmtA)
  | 7 => some (.por w.fmtA)
  | 8 => some (.pxor w.fmtA)
  | 9 => some (.pnot w.fmtA)
  | 10 => some (.ppack w.fmtA)
  | 11 => some (.pbit w.fmtA)
  | 12 => some (.sel w.fmtA)
  | 13 => some (.isnull w.fmtA)
  | _ => none

/-- OP 0x05, group MOVE; a SUB the table marks rsv has no form. -/
def decodeMove (w : Code) : Nat → Option Instr
  | 0 => some (.mov w.fmtA)
  | 1 => some (.movi w.fmtK)
  | 2 => some (.movhi w.fmtA)
  | 3 => some (.null w.fmtA)
  | 4 => some (.get w.fmtG)
  | 5 => some (.mfc w.fmtA)
  | 6 => some (.mtc w.fmtA)
  | 7 => some (.gtid w.fmtA)
  | 8 => some (.core w.fmtA)
  | 9 => some (.clk w.fmtA)
  | 10 => some (.sigchk w.fmtA)
  | _ => none

/-- OP 0x06, group FPS; a SUB the table marks rsv has no form. -/
def decodeFps (w : Code) : Nat → Option Instr
  | 0 => some (.fadd w.fmtA)
  | 1 => some (.fsub w.fmtA)
  | 2 => some (.fmul w.fmtA)
  | 3 => some (.fdiv w.fmtA)
  | 4 => some (.fsqrt w.fmtA)
  | 5 => some (.fma w.fmtA)
  | 6 => some (.fmin w.fmtA)
  | 7 => some (.fmax w.fmtA)
  | 8 => some (.fneg w.fmtA)
  | 9 => some (.fabs w.fmtA)
  | 10 => some (.fceq w.fmtA)
  | 11 => some (.fclt w.fmtA)
  | 12 => some (.fcle w.fmtA)
  | 13 => some (.fcun w.fmtA)
  | 14 => some (.cvt w.fmtA)
  | _ => none

/-- OP 0x07, group EXIT; a SUB the table marks rsv has no form. -/
def decodeExit (w : Code) : Nat → Option Instr
  | 0 => some (.bra w.fmtB)
  | 1 => some (.jmp w.fmtB)
  | 2 => some (.call w.fmtB)
  | 3 => some (.ret w.fmtB)
  | 4 => some (.tend w.fmtB)
  | 5 => some (.trap w.fmtB)
  | 6 => some (.mig w.fmtB)
  | _ => none

/-- OP 0x08, group TASK; a SUB the table marks rsv has no form. -/
def decodeTask (w : Code) : Nat → Option Instr
  | 0 => some (.fork w.fmtE)
  | 1 => some (.join w.fmtE)
  | 2 => some (.jwait w.fmtE)
  | 3 => some (.pause w.fmtS)
  | 4 => some (.rngopen w.fmtE)
  | 5 => some (.rngdraw w.fmtS)
  | 6 => some (.rngclose w.fmtE)
  | _ => none

/-- OP 0x10, group VARITH; a SUB the table marks rsv has no form. -/
def decodeVarith (w : Code) : Nat → Option Instr
  | 0 => some (.vadd w.fmtA)
  | 1 => some (.vsub w.fmtA)
  | 2 => some (.vmul w.fmtA)
  | 3 => some (.vfma w.fmtA)
  | 4 => some (.vmin w.fmtA)
  | 5 => some (.vmax w.fmtA)
  | 6 => some (.vabs w.fmtA)
  | 7 => some (.vneg w.fmtA)
  | 8 => some (.vdiv w.fmtA)
  | 9 => some (.vsqrt w.fmtA)
  | 10 => some (.vcmp w.fmtA)
  | 11 => some (.vsel w.fmtA)
  | 12 => some (.vmask w.fmtA)
  | 13 => some (.vtmul w.fmtA)
  | 14 => some (.vtadd w.fmtA)
  | _ => none

/-- OP 0x11, group VDATA; a SUB the table marks rsv has no form. -/
def decodeVdata (w : Code) : Nat → Option Instr
  | 0 => some (.vcvt w.fmtA)
  | 1 => some (.vscale w.fmtA)
  | 2 => some (.vdot w.fmtA)
  | 3 => some (.vred w.fmtA)
  | 4 => some (.vperm w.fmtA)
  | 5 => some (.vbcast w.fmtA)
  | 6 => some (.vext w.fmtA)
  | 7 => some (.vins w.fmtA)
  | 8 => some (.vtag w.fmtA)
  | _ => none

/-- OP 0x20, group MEM; a SUB the table marks rsv has no form. -/
def decodeMem (w : Code) : Nat → Option Instr
  | 0 => some (.ldb w.fmtM)
  | 1 => some (.ldh w.fmtM)
  | 2 => some (.ldw w.fmtM)
  | 3 => some (.ldd w.fmtM)
  | 4 => some (.ldbu w.fmtM)
  | 5 => some (.ldhu w.fmtM)
  | 6 => some (.ldwu w.fmtM)
  | 8 => some (.stb w.fmtM)
  | 9 => some (.sth w.fmtM)
  | 10 => some (.stw w.fmtM)
  | 11 => some (.std w.fmtM)
  | 12 => some (.vld w.fmtM)
  | 13 => some (.vst w.fmtM)
  | 14 => some (.vldg w.fmtM)
  | 15 => some (.vsts w.fmtM)
  | _ => none

/-- OP 0x21, group SYNC; a SUB the table marks rsv has no form. -/
def decodeSync (w : Code) : Nat → Option Instr
  | 0 => some (.ldf w.fmtM)
  | 1 => some (.lde w.fmtM)
  | 2 => some (.stf w.fmtM)
  | 3 => some (.sts w.fmtM)
  | 4 => some (.feset w.fmtM)
  | 5 => some (.feclr w.fmtM)
  | 6 => some (.feget w.fmtM)
  | 7 => some (.fence w.fmtM)
  | _ => none

/-- OP 0x22, group ATOM; a SUB the table marks rsv has no form. -/
def decodeAtom (w : Code) : Nat → Option Instr
  | 0 => some (.aadd w.fmtM)
  | 1 => some (.amin w.fmtM)
  | 2 => some (.amax w.fmtM)
  | 3 => some (.aminu w.fmtM)
  | 4 => some (.amaxu w.fmtM)
  | 5 => some (.aand w.fmtM)
  | 6 => some (.aor w.fmtM)
  | 7 => some (.axor w.fmtM)
  | 8 => some (.axch w.fmtM)
  | 9 => some (.acas w.fmtM)
  | 10 => some (.afadd w.fmtM)
  | _ => none

/-- OP 0x23, group SYSM; a SUB the table marks rsv has no form. -/
def decodeSysm (w : Code) : Nat → Option Instr
  | 0 => some (.pfill w.fmtM)
  | 1 => some (.pgstat w.fmtM)
  | 2 => some (.tlbinv w.fmtM)
  | _ => none

/-- OP 0x30, group HNDL; a SUB the table marks rsv has no form. -/
def decodeHndl (w : Code) : Nat → Option Instr
  | 0 => some (.hwait w.fmtE)
  | 1 => some (.htest w.fmtS)
  | 2 => some (.hcancel w.fmtE)
  | 3 => some (.cpy w.fmtE)
  | 4 => some (.cpyx w.fmtE)
  | 5 => some (.cpys w.fmtE)
  | _ => none

/-- OP 0x31, group TREE; a SUB the table marks rsv has no form. -/
def decodeTree (w : Code) : Nat → Option Instr
  | 0 => some (.tmul w.fmtE)
  | 1 => some (.tmv w.fmtE)
  | 2 => some (.tadd w.fmtE)
  | 3 => some (.tasm w.fmtE)
  | 4 => some (.ttype w.fmtE)
  | 5 => some (.tfree w.fmtE)
  | 6 => some (.tcopy w.fmtE)
  | 7 => some (.ttrans w.fmtE)
  | 8 => some (.tsolve w.fmtE)
  | 9 => some (.tchol w.fmtE)
  | 10 => some (.tresume w.fmtE)
  | _ => none

/-- OP 0x32, group DIAG; a SUB the table marks rsv has no form. -/
def decodeDiag (w : Code) : Nat → Option Instr
  | 0 => some (.dvar w.fmtE)
  | 1 => some (.dapp w.fmtE)
  | 2 => some (.dnot w.fmtE)
  | 3 => some (.dite w.fmtE)
  | 4 => some (.dres w.fmtE)
  | 5 => some (.dexq w.fmtE)
  | 6 => some (.dcnt w.fmtE)
  | 7 => some (.dref w.fmtE)
  | 8 => some (.dunref w.fmtE)
  | 9 => some (.dgc w.fmtE)
  | 10 => some (.dsize w.fmtE)
  | 11 => some (.dresume w.fmtE)
  | _ => none

/-- OP 0x33, group RATE; a SUB the table marks rsv has no form. -/
def decodeRate (w : Code) : Nat → Option Instr
  | 0 => some (.rsinit w.fmtE)
  | 1 => some (.rsbegin w.fmtE)
  | 2 => some (.rsnext w.fmtE)
  | 3 => some (.rsread w.fmtE)
  | 4 => some (.rsput w.fmtE)
  | 5 => some (.rsstat w.fmtE)
  | _ => none

/-- OP 0x38, group SYS; a SUB the table marks rsv has no form. -/
def decodeSys (w : Code) : Nat → Option Instr
  | 0 => some (.rfe w.fmtS)
  | 1 => some (.bkpt w.fmtS)
  | 2 => some (.halt w.fmtS)
  | _ => none

/-- The run-time decoder (R49): the form a word holds, or none for OP 0x00, 0xB7, an unassigned OP or a rsv SUB. -/
def decode (w : Code) : Option Instr :=
  match w.op with
  | 0x01 => decodeInta w w.sub
  | 0x02 => decodeInti w w.sub
  | 0x03 => decodeLogic w w.sub
  | 0x04 => decodePred w w.sub
  | 0x05 => decodeMove w w.sub
  | 0x06 => decodeFps w w.sub
  | 0x07 => decodeExit w w.sub
  | 0x08 => decodeTask w w.sub
  | 0x10 => decodeVarith w w.sub
  | 0x11 => decodeVdata w w.sub
  | 0x20 => decodeMem w w.sub
  | 0x21 => decodeSync w w.sub
  | 0x22 => decodeAtom w w.sub
  | 0x23 => decodeSysm w w.sub
  | 0x30 => decodeHndl w w.sub
  | 0x31 => decodeTree w w.sub
  | 0x32 => decodeDiag w w.sub
  | 0x33 => decodeRate w w.sub
  | 0x38 => decodeSys w w.sub
  | _ => none

/-! The encoder. -/

def Guard.code : Guard → BitVec 2
  | .none => 0
  | .onTrue => 1
  | .onFalse => 2
  | .reserved => 3

def Width.bits : Width → BitVec 2
  | .d => 0
  | .w => 1
  | .h => 2
  | .b => 3

def Slot.bits : Slot → BitVec 2
  | .a => 0
  | .b => 1
  | .c => 2
  | .p => 3

/-- Table 2 of R29. -/
def Target.bits : Option Target → BitVec 12
  | none => 0
  | some (.slot s i) => 2#2 ++ s.bits ++ 0#2 ++ i
  | some (.greg n) => 3#2 ++ 0#6 ++ n
  | some (.vreg n) => 3#2 ++ 0#4 ++ 0#1 ++ 1#1 ++ 0#1 ++ n

/-- A word from its fields, high to low (R25). -/
def asmWord (op sub : Nat) (gm : BitVec 2) (rx : Bool) (hn : BitVec 3) (lw : BitVec 6) (x y z : BitVec 24) : Code :=
  BitVec.ofNat 8 op ++ BitVec.ofNat 4 sub ++ gm ++ BitVec.ofBool rx ++ hn ++ lw ++ x ++ y ++ z

def Targets.x (t : Targets) : BitVec 24 := Target.bits t.t0 ++ Target.bits t.t1
def Targets.y (t : Targets) : BitVec 24 := Target.bits t.t2 ++ Target.bits t.t3

def hint (crit : Bool) : BitVec 3 := if crit then 1 else 0

def FmtA.word (f : FmtA) (op sub : Nat) : Code :=
  asmWord op sub f.gm.code false (hint f.crit) (f.wd.bits ++ f.xf) f.t.x f.t.y f.z
def FmtK.word (f : FmtK) (op sub : Nat) : Code :=
  asmWord op sub f.gm.code false (hint f.crit) 0 (Target.bits f.t0 ++ Target.bits f.t1) (f.imm.extractLsb' 24 24)
    (f.imm.extractLsb' 0 24)
def FmtG.word (f : FmtG) (op sub : Nat) : Code :=
  asmWord op sub f.gm.code false (hint f.crit) 0 f.t.x f.t.y (0#19 ++ BitVec.ofBool f.vec ++ f.reg)
def FmtM.word (f : FmtM) (op sub : Nat) : Code :=
  asmWord op sub f.gm.code f.rx (0#1 ++ BitVec.ofBool f.ord ++ BitVec.ofBool f.mig) (0#1 ++ f.lsid) f.t.x f.t.y f.z
def FmtB.word (f : FmtB) (op sub : Nat) : Code :=
  asmWord op sub f.gm.code false (hint f.crit) 0 (Target.bits f.t0 ++ Target.bits f.t1) (0#21 ++ f.exit) f.z
def FmtE.word (f : FmtE) (op sub : Nat) : Code :=
  asmWord op sub f.gm.code false 0 (0#1 ++ f.lsid) f.t.x f.t.y f.z
def FmtS.word (f : FmtS) (op sub : Nat) : Code :=
  asmWord op sub f.gm.code false (hint f.crit) 63 f.t.x f.t.y f.z

/-- The word of a form; a device step has none. -/
def encode : Instr → Option Code
  | .add f => some (f.word 0x01 0)
  | .sub f => some (f.word 0x01 1)
  | .mul f => some (f.word 0x01 2)
  | .mulh f => some (f.word 0x01 3)
  | .mulhu f => some (f.word 0x01 4)
  | .div f => some (f.word 0x01 5)
  | .divu f => some (f.word 0x01 6)
  | .rem f => some (f.word 0x01 7)
  | .remu f => some (f.word 0x01 8)
  | .min f => some (f.word 0x01 9)
  | .max f => some (f.word 0x01 10)
  | .minu f => some (f.word 0x01 11)
  | .maxu f => some (f.word 0x01 12)
  | .neg f => some (f.word 0x01 13)
  | .abs f => some (f.word 0x01 14)
  | .addi f => some (f.word 0x02 0)
  | .muli f => some (f.word 0x02 1)
  | .andi f => some (f.word 0x02 2)
  | .ori f => some (f.word 0x02 3)
  | .xori f => some (f.word 0x02 4)
  | .shli f => some (f.word 0x02 5)
  | .shri f => some (f.word 0x02 6)
  | .sari f => some (f.word 0x02 7)
  | .ceqi f => some (f.word 0x02 8)
  | .cnei f => some (f.word 0x02 9)
  | .clti f => some (f.word 0x02 10)
  | .clei f => some (f.word 0x02 11)
  | .cltui f => some (f.word 0x02 12)
  | .cleui f => some (f.word 0x02 13)
  | .lea f => some (f.word 0x02 14)
  | .and f => some (f.word 0x03 0)
  | .or f => some (f.word 0x03 1)
  | .xor f => some (f.word 0x03 2)
  | .not f => some (f.word 0x03 3)
  | .shl f => some (f.word 0x03 4)
  | .shr f => some (f.word 0x03 5)
  | .sar f => some (f.word 0x03 6)
  | .rot f => some (f.word 0x03 7)
  | .clz f => some (f.word 0x03 8)
  | .ctz f => some (f.word 0x03 9)
  | .popc f => some (f.word 0x03 10)
  | .bfx f => some (f.word 0x03 11)
  | .bfi f => some (f.word 0x03 12)
  | .sext f => some (f.word 0x03 13)
  | .zext f => some (f.word 0x03 14)
  | .ceq f => some (f.word 0x04 0)
  | .cne f => some (f.word 0x04 1)
  | .clt f => some (f.word 0x04 2)
  | .cle f => some (f.word 0x04 3)
  | .cltu f => some (f.word 0x04 4)
  | .cleu f => some (f.word 0x04 5)
  | .pand f => some (f.word 0x04 6)
  | .por f => some (f.word 0x04 7)
  | .pxor f => some (f.word 0x04 8)
  | .pnot f => some (f.word 0x04 9)
  | .ppack f => some (f.word 0x04 10)
  | .pbit f => some (f.word 0x04 11)
  | .sel f => some (f.word 0x04 12)
  | .isnull f => some (f.word 0x04 13)
  | .mov f => some (f.word 0x05 0)
  | .movi f => some (f.word 0x05 1)
  | .movhi f => some (f.word 0x05 2)
  | .null f => some (f.word 0x05 3)
  | .get f => some (f.word 0x05 4)
  | .mfc f => some (f.word 0x05 5)
  | .mtc f => some (f.word 0x05 6)
  | .gtid f => some (f.word 0x05 7)
  | .core f => some (f.word 0x05 8)
  | .clk f => some (f.word 0x05 9)
  | .sigchk f => some (f.word 0x05 10)
  | .fadd f => some (f.word 0x06 0)
  | .fsub f => some (f.word 0x06 1)
  | .fmul f => some (f.word 0x06 2)
  | .fdiv f => some (f.word 0x06 3)
  | .fsqrt f => some (f.word 0x06 4)
  | .fma f => some (f.word 0x06 5)
  | .fmin f => some (f.word 0x06 6)
  | .fmax f => some (f.word 0x06 7)
  | .fneg f => some (f.word 0x06 8)
  | .fabs f => some (f.word 0x06 9)
  | .fceq f => some (f.word 0x06 10)
  | .fclt f => some (f.word 0x06 11)
  | .fcle f => some (f.word 0x06 12)
  | .fcun f => some (f.word 0x06 13)
  | .cvt f => some (f.word 0x06 14)
  | .bra f => some (f.word 0x07 0)
  | .jmp f => some (f.word 0x07 1)
  | .call f => some (f.word 0x07 2)
  | .ret f => some (f.word 0x07 3)
  | .tend f => some (f.word 0x07 4)
  | .trap f => some (f.word 0x07 5)
  | .mig f => some (f.word 0x07 6)
  | .fork f => some (f.word 0x08 0)
  | .join f => some (f.word 0x08 1)
  | .jwait f => some (f.word 0x08 2)
  | .pause f => some (f.word 0x08 3)
  | .rngopen f => some (f.word 0x08 4)
  | .rngdraw f => some (f.word 0x08 5)
  | .rngclose f => some (f.word 0x08 6)
  | .vadd f => some (f.word 0x10 0)
  | .vsub f => some (f.word 0x10 1)
  | .vmul f => some (f.word 0x10 2)
  | .vfma f => some (f.word 0x10 3)
  | .vmin f => some (f.word 0x10 4)
  | .vmax f => some (f.word 0x10 5)
  | .vabs f => some (f.word 0x10 6)
  | .vneg f => some (f.word 0x10 7)
  | .vdiv f => some (f.word 0x10 8)
  | .vsqrt f => some (f.word 0x10 9)
  | .vcmp f => some (f.word 0x10 10)
  | .vsel f => some (f.word 0x10 11)
  | .vmask f => some (f.word 0x10 12)
  | .vtmul f => some (f.word 0x10 13)
  | .vtadd f => some (f.word 0x10 14)
  | .vcvt f => some (f.word 0x11 0)
  | .vscale f => some (f.word 0x11 1)
  | .vdot f => some (f.word 0x11 2)
  | .vred f => some (f.word 0x11 3)
  | .vperm f => some (f.word 0x11 4)
  | .vbcast f => some (f.word 0x11 5)
  | .vext f => some (f.word 0x11 6)
  | .vins f => some (f.word 0x11 7)
  | .vtag f => some (f.word 0x11 8)
  | .ldb f => some (f.word 0x20 0)
  | .ldh f => some (f.word 0x20 1)
  | .ldw f => some (f.word 0x20 2)
  | .ldd f => some (f.word 0x20 3)
  | .ldbu f => some (f.word 0x20 4)
  | .ldhu f => some (f.word 0x20 5)
  | .ldwu f => some (f.word 0x20 6)
  | .stb f => some (f.word 0x20 8)
  | .sth f => some (f.word 0x20 9)
  | .stw f => some (f.word 0x20 10)
  | .std f => some (f.word 0x20 11)
  | .vld f => some (f.word 0x20 12)
  | .vst f => some (f.word 0x20 13)
  | .vldg f => some (f.word 0x20 14)
  | .vsts f => some (f.word 0x20 15)
  | .ldf f => some (f.word 0x21 0)
  | .lde f => some (f.word 0x21 1)
  | .stf f => some (f.word 0x21 2)
  | .sts f => some (f.word 0x21 3)
  | .feset f => some (f.word 0x21 4)
  | .feclr f => some (f.word 0x21 5)
  | .feget f => some (f.word 0x21 6)
  | .fence f => some (f.word 0x21 7)
  | .aadd f => some (f.word 0x22 0)
  | .amin f => some (f.word 0x22 1)
  | .amax f => some (f.word 0x22 2)
  | .aminu f => some (f.word 0x22 3)
  | .amaxu f => some (f.word 0x22 4)
  | .aand f => some (f.word 0x22 5)
  | .aor f => some (f.word 0x22 6)
  | .axor f => some (f.word 0x22 7)
  | .axch f => some (f.word 0x22 8)
  | .acas f => some (f.word 0x22 9)
  | .afadd f => some (f.word 0x22 10)
  | .pfill f => some (f.word 0x23 0)
  | .pgstat f => some (f.word 0x23 1)
  | .tlbinv f => some (f.word 0x23 2)
  | .hwait f => some (f.word 0x30 0)
  | .htest f => some (f.word 0x30 1)
  | .hcancel f => some (f.word 0x30 2)
  | .cpy f => some (f.word 0x30 3)
  | .cpyx f => some (f.word 0x30 4)
  | .cpys f => some (f.word 0x30 5)
  | .tmul f => some (f.word 0x31 0)
  | .tmv f => some (f.word 0x31 1)
  | .tadd f => some (f.word 0x31 2)
  | .tasm f => some (f.word 0x31 3)
  | .ttype f => some (f.word 0x31 4)
  | .tfree f => some (f.word 0x31 5)
  | .tcopy f => some (f.word 0x31 6)
  | .ttrans f => some (f.word 0x31 7)
  | .tsolve f => some (f.word 0x31 8)
  | .tchol f => some (f.word 0x31 9)
  | .tresume f => some (f.word 0x31 10)
  | .dvar f => some (f.word 0x32 0)
  | .dapp f => some (f.word 0x32 1)
  | .dnot f => some (f.word 0x32 2)
  | .dite f => some (f.word 0x32 3)
  | .dres f => some (f.word 0x32 4)
  | .dexq f => some (f.word 0x32 5)
  | .dcnt f => some (f.word 0x32 6)
  | .dref f => some (f.word 0x32 7)
  | .dunref f => some (f.word 0x32 8)
  | .dgc f => some (f.word 0x32 9)
  | .dsize f => some (f.word 0x32 10)
  | .dresume f => some (f.word 0x32 11)
  | .rsinit f => some (f.word 0x33 0)
  | .rsbegin f => some (f.word 0x33 1)
  | .rsnext f => some (f.word 0x33 2)
  | .rsread f => some (f.word 0x33 3)
  | .rsput f => some (f.word 0x33 4)
  | .rsstat f => some (f.word 0x33 5)
  | .rfe f => some (f.word 0x38 0)
  | .bkpt f => some (f.word 0x38 1)
  | .halt f => some (f.word 0x38 2)
  | .blockFetch _ _ => none
  | .codeCacheFill _ _ => none
  | .resultDelivery _ _ => none
  | .blockCommit _ _ => none
  | .trapEntry _ _ => none
  | .taskTerminate _ _ => none
  | .taskEnd _ _ => none
  | .waitRetry _ _ => none
  | .spinExpiry _ _ => none
  | .parkAttempt _ _ => none
  | .parkWriteout _ _ => none
  | .parkSlotRetryExpiry _ _ => none
  | .wakeDelivery _ => none
  | .wlimitExpiry _ _ => none
  | .waitCancel _ => none
  | .findWork _ _ => none
  | .stealAttempt _ _ => none
  | .stealBackoffExpiry _ _ => none
  | .rootPlacement _ => none
  | .migrationArrival _ => none
  | .migrationNack _ _ => none
  | .migrationRetryExpiry _ _ => none
  | .replyArrival _ _ => none
  | .pauseExpiry _ _ => none
  | .poolScrub _ _ => none
  | .sendNonRelaxed _ _ => none
  | .sendRelaxed _ _ _ => none
  | .arrive _ _ => none
  | .perform _ => none
  | .replay _ _ => none
  | .acknowledge _ _ => none
  | .faultRecordPost _ => none
  | .faultPostRetryExpiry _ _ => none
  | .engineJobResolve _ _ => none
  | .mapExecutable _ => none
  | .withdrawExecutable _ => none
  | .pfillRelaxedWalk _ _ => none
  | .queueReservationExpiry _ _ => none
  | .tmeStep _ => none
  | .ddeStep _ => none
  | .copyFrame _ => none
  | .cpyxChunk _ _ => none
  | .cpyxFinish _ => none
  | .eclipseRaise _ _ => none
  | .stopAreaWrite _ => none
  | .preemptGraceExpiry _ => none
  | .preemptAbortExpiry _ => none
  | .saveRecordWrite _ => none
  | .saveHeaderWrite _ => none
  | .containment _ => none
  | .umbraFence _ => none
  | .umbraReset _ => none
  | .containmentNotice _ => none
  | .nackReceived _ _ => none
  | .doorbell _ _ _ => none
  | .peerDoorbell _ _ _ => none
  | .peerWrite _ _ _ => none
  | .launchEntry _ => none
  | .launchCompletion _ => none
  | .msixUnmask _ _ => none
  | .statRead _ => none
  | .eventRead _ => none
  | .mailboxWrite _ _ _ => none
  | .createPartition _ => none
  | .destroyPartition _ => none
  | .setQueue _ => none
  | .preemptPartition _ => none
  | .resumePartition _ => none
  | .setTimeSlotTables _ => none
  | .setUmbrae _ => none
  | .terminateTask _ => none
  | .readStartRecord _ => none
  | .attestationReport _ => none
  | .raiseEclipseLine _ => none
  | .releaseEclipseLine _ => none
  | .attach _ => none
  | .detach _ => none
  | .setBreakpoint _ => none
  | .releaseContext _ => none
  | .releasePartition _ => none
  | .readContext _ => none
  | .writeContext _ => none
  | .readJobQueue _ => none
  | .readWakeTable _ => none
  | .readCopyTrace _ => none
  | .timeSlotFrame => none
  | .moduleStart _ => none
  | .dieAbove95 _ => none
  | .dieBackAt90 => none
  | .dieAbove105 _ => none
  | .overtempPowerRemoval => none
  | .clock => none
  | .unknownOperation _ _ => none

/-- The instruction the decoder reads from the opcode table's numbering of a word: the table's bit 0 is bit 0 of the
96-bit word (R24), bits the table does not give are 0. -/
def decodeTableWord (nbits w : Nat) : Option Instr := decode (BitVec.ofNat 96 (w % 2 ^ nbits))

/-- The 12 bytes of a word, lowest address first (R24). -/
def codeBytes (w : Code) : List Byte :=
  [w.extractLsb' 0 8, w.extractLsb' 8 8, w.extractLsb' 16 8, w.extractLsb' 24 8,
   w.extractLsb' 32 8, w.extractLsb' 40 8, w.extractLsb' 48 8, w.extractLsb' 56 8,
   w.extractLsb' 64 8, w.extractLsb' 72 8, w.extractLsb' 80 8, w.extractLsb' 88 8]

/-- The word that 12 bytes hold (R24); a shorter list holds no word. -/
def readCode : List Byte → Option Code
  | b0 :: b1 :: b2 :: b3 :: b4 :: b5 :: b6 :: b7 :: b8 :: b9 :: b10 :: b11 :: _ =>
    some (b11 ++ b10 ++ b9 ++ b8 ++ b7 ++ b6 ++ b5 ++ b4 ++ b3 ++ b2 ++ b1 ++ b0)
  | _ => none

/-- Decoding from bytes: rejects by answering `none` on a short list or an unassigned word. -/
def decodeBytes (bs : List Byte) : Option Instr := (readCode bs).bind decode

/-! The header word (R37). -/

def Code.isHeader (w : Code) : Bool := w.op == 0xB7
/-- LEN, the number of instructions less 1. -/
def Code.len (w : Code) : Nat := (w.extractLsb' 82 6).toNat
def Code.smask (w : Code) : BitVec 32 := w.extractLsb' 49 32
def Code.gwmask (w : Code) : BitVec 16 := w.extractLsb' 33 16
def Code.vwmask (w : Code) : BitVec 8 := w.extractLsb' 25 8
def Code.bk (w : Code) : BitVec 2 := w.extractLsb' 23 2
def Code.nexit (w : Code) : BitVec 3 := w.extractLsb' 20 3
def Code.sig (w : Code) : BitVec 16 := w.extractLsb' 0 16
/-- A sync block (BK = 01). -/
def Code.isSync (w : Code) : Bool := w.bk == 1#2

/-! Fields common to every form, for the issue logic. -/

def Code.info (w : Code) : Option FormInfo := (decode w).bind Instr.info

/-- A GET with the vector flag set delivers a vector (R36). -/
def Code.resVec (w : Code) (i : FormInfo) : Bool := if i.fmt == .g then w.getLsbD 4 else i.res == some true

/-- The targets of the word under its format; format K and B have T0 and T1 alone (R31). -/
def Code.outs (w : Code) (i : FormInfo) : List Target :=
  let k := match i.fmt with
    | .k | .b => 2
    | _ => 4
  if i.res.isNone then [] else (List.range k).filterMap w.target

/-- The LSID of a memory-class form (R32). -/
def Code.lsid (w : Code) : Nat := (w.extractLsb' 72 5).toNat

end Sys2Proof
end

