-- ==== Sys2Proof/Machine/State.lean ====
section
/-! DEFINITION. The state of the Darfel module, plain data throughout: what the spec names (INVENTORY.md, "State"), and
the model's own fields `sched`, `cur`, `evlog`, `freeCtr`. -/

namespace Sys2Proof.Machine

/-! ### Sparse tables: a list of (key, value) with strictly rising keys; an absent key reads as a default. -/

/-- The value at key `k`, `d` when no entry names it. -/
def sget {α : Type} (d : α) (k : Nat) : List (Nat × α) → α
  | [] => d
  | (j, v) :: t => if j == k then v else sget d k t

/-- The table with `v` at key `k`. -/
def sset {α : Type} (k : Nat) (v : α) : List (Nat × α) → List (Nat × α)
  | [] => [(k, v)]
  | (j, u) :: t => if k < j then (k, v) :: (j, u) :: t else if j == k then (k, v) :: t else (j, u) :: sset k v t

/-! ### Reasons to stop -/

/-- Why the machine would stop for good. No meaning of this model raises it: the faults of the spec are traps, notices,
terminations and containment, which all end in a next state (R327). Safe. -/
inductive Fault where
  /-- Raised by nobody; safe. -/
  | stopped
  deriving DecidableEq, Repr

/-- Why an instruction would have no meaning. -/
inductive Refusal where
  /-- Raised by an arm of `exec` whose instruction is not modelled; safe (the run stops). -/
  | notModelled (mnemonic : String)
  deriving DecidableEq, Repr

/-! ### Tokens and registers -/

/-- A token (R33, R34, R35): the null token, a scalar, or a vector with its tag and a null mask by lane (R144). -/
inductive Token where
  | null
  | scalar (w : Word)
  | vector (bits : VBits) (tag : BitVec 4) (nulls : BitVec 32)
  deriving DecidableEq, Repr

/-- A vector register: data and format tag (R96). -/
structure VReg where
  bits : VBits := 0
  tag : BitVec 4 := 0
  deriving DecidableEq, Repr

/-- A random stream register (R120). -/
structure Stream where
  isOpen : Bool := false
  key : Word := 0
  deriving DecidableEq, Repr

/-- The registers of a context (R95, R96, R101, R120, R330): general and vector registers, task-level control
registers, random streams, handler flag. -/
structure Regs where
  g : Vector Word 16 := Vector.replicate 16 0
  v : Vector VReg 8 := Vector.replicate 8 {}
  fmode : BitVec 3 := 0
  wspin : BitVec 16 := 0
  wlimit : BitVec 32 := 0
  slimit : Word := 0
  tvec : Word := 0
  tcause : BitVec 8 := 0
  taddr : Word := 0
  tblk : Word := 0
  tidx : BitVec 7 := 0
  stealdom : BitVec 3 := 0
  xsig : Word := 0
  tsave : Word := 0
  streams : Vector Stream 4 := Vector.replicate 4 {}
  hf : Bool := false
  deriving DecidableEq, Repr

/-- What the next execution of the block at `blk` is to leave out: HN[78] (R90), BKPT (R332), breakpoints (R370), the
watchpoint (R372). -/
structure Skips where
  blk : Word := 0
  mig : Bool := false
  bkpt : Bool := false
  brk : Bool := false
  watch : Bool := false
  deriving DecidableEq, Repr

/-- What the device knows of a task beside its registers (R79, R81, R102, R368). -/
structure Task where
  gtid : Word := 0
  launch : Nat := 0
  sup : Bool := false
  enq : BitVec 48 := 0
  deq : BitVec 48 := 0
  fails : BitVec 16 := 0
  parks : BitVec 16 := 0
  skip : Skips := {}
  /-- The block that met a first signature mismatch, to be executed once more (R41). -/
  sigRetry : Option Word := none
  /-- The same of the block that the running handler interrupted. -/
  sigHeld : Option Word := none
  /-- Resume address of Table 2 of R330 of the block aborted last, for a trap taken after a park (R187, R217). -/
  resume : Word := 0
  deriving DecidableEq, Repr

/-- Core-scope control registers (R102, R162, R168, R170, R204, R366, R371). -/
structure CoreRegs where
  partw : Word := 0
  lprot : Vector Word 8 := Vector.replicate 8 0
  asid : Word := 0
  rwtb : Word := 0
  evsel : Vector (BitVec 13) 4 := Vector.replicate 4 0
  evcnt : Vector (BitVec 48) 4 := Vector.replicate 4 0
  ovf : BitVec 4 := 0
  almidx : BitVec 8 := 0
  almwrap : Bool := false
  wpaddr : Word := 0
  wpmask : Word := 0
  wpctl : BitVec 24 := 0
  deriving DecidableEq, Repr

/-- Cluster-scope control registers (R205, R366). -/
structure ClusterRegs where
  pagerq : Word := 0
  sel : Vector (BitVec 9) 8 := Vector.replicate 8 0
  cnt : Vector (BitVec 48) 8 := Vector.replicate 8 0
  deriving DecidableEq, Repr

/-! ### Accesses (R190 to R193) -/

/-- Access classes (R192). -/
inductive AccClass where
  | relaxed | plain | strong
  deriving DecidableEq, Repr

/-- The atomic operations of Table 10 (R180). -/
inductive AtomOp where
  | add | min | max | minu | maxu | and | or | xor | xch | cas | fadd
  deriving DecidableEq, Repr

/-- The rate-set forms (R318). -/
inductive RateOp where
  | init | begin | next | read (m : Word) | put (m : Word) (vals : VBits) (nulls : BitVec 32) | stat
  deriving DecidableEq, Repr

/-- An access named by its context and its place in access order; an engine's request by 16 for the context and its
number as place. -/
structure AccRef where
  core : Nat
  ctx : Nat
  gen : BitVec 8
  key : Nat × Nat × Nat × Nat
  deriving DecidableEq, Repr

/-- What an access does at its home (R172, R176, R180, R83, R84, R234, R235, R318). -/
inductive MemOp where
  /-- Read bytes. -/
  | load
  /-- The one strong read of an engine command's descriptor (R231). -/
  | desc
  /-- Write bytes; `none` leaves the byte as it is (R158). -/
  | store (data : List (Option Byte))
  | ldf | lde | stf (v : Word) | sts (v : Word) | feset | feclr | feget
  /-- FENCE performs no access (R197). -/
  | fence
  /-- PGSTAT walks when its turn in access order comes and performs no access at a home (R192, R221). -/
  | pgstat
  | atom (op : AtomOp) (b c : Word) (rm : BitVec 2)
  | join | jwait | hwait | htest
  | rate (op : RateOp)
  /-- TLBINV waits until these accesses, engines' requests among them, have been performed or discarded (R223). -/
  | tlbinv (awaits : List AccRef)
  deriving DecidableEq, Repr

/-- Where an access stands in the Orrery (R193). -/
inductive AccState where
  /-- In the block window; a store stays here until commit. -/
  | window
  /-- In the drain queue, not sent. -/
  | drain
  /-- Sent and unacknowledged. -/
  | sent
  /-- In the relaxed pool, returned unperformed because the replay queue was full (Defer). -/
  | pooled
  /-- In the replay queue. -/
  | replay
  /-- Acknowledged; its reply has not reached the context. -/
  | acked
  deriving DecidableEq, Repr

/-- How a FAR access was translated at its Enter (R211): what an invalidation re-examines (R213, R223). -/
structure FarRef where
  va : BitVec 57
  asid : BitVec 12
  s1root : BitVec 36
  part : Nat
  st : BitVec 2
  /-- The IA the stage-2 translation used (scope 010 of R222), and whether the page is 32 MiB. -/
  ia : BitVec 48
  big : Bool
  /-- The IA page is one of 32 MiB. -/
  iaBig : Bool := false
  deriving DecidableEq, Repr

/-- One access of a context. The key (`blk`, `rank`, `lsid`, `part`) is its place in access order (R191): rank 0
non-storing, 1 HTEST, 2 irrevocable, 3 store. -/
structure Access where
  blk : Nat := 0
  rank : Nat := 0
  lsid : Nat := 0
  part : Nat := 0
  idx : Nat := 0
  cls : AccClass := .plain
  op : MemOp := .load
  ea : Word := 0
  size : Nat := 8
  home : Home := .pool 0
  /-- Memory key of the first byte when the home is known, the window offset for a CORE access (R169). -/
  addr : Nat := 0
  core : Bool := false
  far : Option FarRef := none
  st : AccState := .window
  inPool : Bool := false
  dead : Bool := false
  /-- A fenced umbra has answered it with a NACK, which is on its way (R340). -/
  nacked : Bool := false
  /-- Bytes forwarded from stores of the same block (R173). -/
  fwd : List (Option Byte) := []
  /-- The parking attempt of R181: condition and park slot. -/
  park : Option (BitVec 2 × Nat) := none
  /-- CLK before which a LOCAL load's token does not arrive (R67). -/
  due : Nat := 0
  /-- The ASID the access is made under, as the block's start found it (R104, R204). -/
  asid : BitVec 12 := 0
  /-- Of a part of a CORE access that a window must admit whole (R157, R169): address and size of the whole. -/
  whole : Option (Word × Nat) := none
  /-- The own watch check has examined the access (R372, R373). -/
  seen : Bool := false
  /-- Address of the block the access belongs to, for a notice (R171, R329). -/
  baddr : Word := 0
  /-- The data answered to this part of a split or element-wise access, once its reply has arrived. -/
  got : Option (List Byte) := none
  deriving DecidableEq, Repr

/-- The operations of a node arena that are performed in one piece at its home (R253): allocate a node, allocate a run of
slots, free the node of an index. -/
inductive ArenaOp where
  | node
  | run (slots : Nat)
  | free (idx : Nat)
  deriving DecidableEq, Repr

/-- What an engine's request is for (R199, R229, R287). -/
inductive EngKind where
  | write
  /-- A read whose word the job keeps as it first read it (R255, R294), or for the operation in progress alone. -/
  | read (keep : Bool)
  /-- A read sent before the operation that needs its word (R199). -/
  | ahead
  /-- The completion word with its status: of an ending, or of a suspension for software. -/
  | word (status : Nat) (ends : Bool)
  /-- The one perform of TRESUME and DRESUME: handle, statuses it restarts from, and the word of a resume that finds no
  such job. -/
  | resume (h : Nat) (oks : List Nat) (bad : Word)
  | arena (op : ArenaOp)
  deriving DecidableEq, Repr

/-- The engine job whose request it is (R199): engine, cluster, slot and its generation, and the agent id a home check
tells (Table 9 of R373). -/
structure EngRef where
  engine : Nat
  cl : Nat
  slot : Nat
  gen : BitVec 8
  id : Word
  kind : EngKind := .write
  deriving DecidableEq, Repr

/-- A request on its way to a home, or in its arrival queue (R193): of a context, or an engine's (`eng`). -/
structure Req where
  core : Nat
  ctx : Nat
  gen : BitVec 8
  gtid : Word
  asid : BitVec 12
  part : Nat
  acc : Access
  /-- CLK at arrival (R18). -/
  at_ : Nat := 0
  eng : Option EngRef := none
  /-- The message stands in its context's NI send queue: the mesh has not taken it yet (R66). -/
  queued : Bool := false
  deriving DecidableEq, Repr

/-- The answer of a home. -/
inductive ReplyBody where
  | bytes (bs : List Byte)
  | value (v : Word)
  | vec (bits : VBits) (nulls : BitVec 32)
  | written
  /-- The condition of a waiting form does not hold. -/
  | notYet
  /-- The parking attempt made a wake-table entry (R181). -/
  | parked
  /-- The home's wake table has no free entry (R186). -/
  | tableFull
  /-- Refused: cause (R327) and TADDR. -/
  | refused (cause : BitVec 8) (addr : Word)
  deriving DecidableEq, Repr

structure Reply where
  core : Nat
  ctx : Nat
  gen : BitVec 8
  acc : Access
  body : ReplyBody
  deriving DecidableEq, Repr

/-! ### The executing block -/

/-- One instruction of the executing block (R33). -/
structure Inst where
  word : Code
  a : Option Token := none
  b : Option Token := none
  c : Option Token := none
  p : Option Token := none
  issued : Bool := false
  fired : Bool := false
  resolved : Bool := false
  /-- Order of issue, for the register rule of R30. -/
  seq : Nat := 0
  /-- The own check has examined the command (R372). -/
  seen : Bool := false
  /-- The descriptor of an engine command, once its one read has been answered (R231). -/
  desc : Option (List Byte) := none
  deriving DecidableEq, Repr

/-- A token on its way to a slot of the block (R67). -/
structure Flight where
  due : Nat
  slot : Slot
  idx : Nat
  tok : Token
  deriving DecidableEq, Repr

/-- A delivery to a register (R30): producer, its issue order, register. -/
structure RegOut where
  seq : Nat
  src : Nat
  vec : Bool
  n : Nat
  tok : Token
  deriving DecidableEq, Repr

/-- An exit that fired non-null: its instruction index and its slot a. -/
structure ExitFired where
  idx : Nat
  a : Word := 0
  deriving DecidableEq, Repr

/-- The control registers as they stood at block start (R104, R117), with the remote windows a CORE probe would meet
read live. -/
structure Snap where
  regs : Regs := {}
  core : CoreRegs := {}
  cluster : ClusterRegs := {}
  deriving DecidableEq, Repr

/-- The block window (R67 to R73). -/
structure Window where
  addr : Word := 0
  header : Code := 0
  insts : List Inst := []
  flights : List Flight := []
  outs : List RegOut := []
  sum : BitVec 16 := 0
  exits : List ExitFired := []
  snap : Snap := {}
  /-- Issue counter. -/
  seq : Nat := 0
  /-- The commit point has issued and can no longer fail to be performed (R72): its access is on its way to its home, or
  its effect has been made. -/
  committed : Bool := false
  /-- An abort is owed should the commit point come back unperformed: an eclipse line, a pre-emption or an invalidation
  met the block while that was open (R223, R334, R336). -/
  doomed : Bool := false
  /-- Relaxed loads sent ahead of forms of earlier places (R196, log 13). -/
  ahead : List Access := []
  /-- Pending MTC (R118). -/
  mtc : Option (BitVec 8 × Word) := none
  /-- TLB entries used by the block's accesses, for R223. -/
  trans : List FarRef := []
  /-- PAUSEs in flight: instruction and the clock at which each fires (R85). -/
  pauses : List (Nat × Nat) := []
  /-- What this execution leaves out (R90, R332, R372). -/
  skip : Skips := {}
  deriving DecidableEq, Repr

/-- What a waiting form waits on (R74, R217, R232). -/
inductive WaitOn where
  /-- A form of the executing block. -/
  | form
  /-- An engine command that meets a full job queue. -/
  | queue
  /-- A fault record's resolve word (R217): core and pool offset of w3, FAR address, block, TIDX. -/
  | resolve (core off : Nat) (addr blk : Word) (idx : BitVec 7)
  deriving DecidableEq, Repr

structure Wait where
  on : WaitOn
  idx : Nat
  /-- The access each attempt makes. -/
  acc : Access := {}
  /-- CLK at the first failed attempt. -/
  start : Nat
  /-- CLK before which no parking attempt is made (R186). -/
  parkAt : Nat
  /-- An attempt is outstanding. -/
  out : Bool := false
  /-- The spin has ended (R74). -/
  expired : Bool := false
  /-- The last parking attempt found no park slot or wake entry; the next comes at `parkAt` (R186). -/
  retry : Bool := false
  deriving DecidableEq, Repr

/-! ### Contexts -/

/-- What a context does once its aborted block's loads have returned (R71). -/
inductive After where
  /-- Fetch the block again, not before the clock given. -/
  | fetch (a : Word) (at_ : Nat)
  /-- Trap entry (R330) with the resume address of Table 2. -/
  | trap (cause : BitVec 8) (addr blk : Word) (idx : BitVec 7) (resume : Word)
  /-- Wait on a resolve word (R217). -/
  | resolve
  /-- Park in the park slot given, for the condition (R75). -/
  | park (pslot : Nat)
  /-- Terminated (R333). -/
  | terminate
  /-- Post a fault record of this kind again after 256 clocks (R216): the clock. -/
  | postRetry (a : Word) (at_ : Nat)
  /-- HALTED, to execute the block at `a` on release (R334, R370, R372). -/
  | halt (a : Word)
  /-- Migrate to the physical core, to go on at block `a` (R90). -/
  | migrate (a : Word) (target : Nat)
  deriving DecidableEq, Repr

/-- A walk still owed by a relaxed PFILL (R220): its address, the ASID register at block start, the block, the clock of
issue. -/
structure OwedFill where
  addr : Word
  asid : Word
  blk : Word
  at_ : Nat
  deriving DecidableEq, Repr

/-- What an ACTIVE context is doing (R65 to R75, R80, R92, R330, R331). -/
inductive Phase where
  | idle
  | fetch (a : Word) (at_ : Nat)
  | fill (a : Word)
  | run
  | after (k : After)
  /-- Waiting for the drain of every access, then PARKED (R75). -/
  | parkDrain (pslot : Nat)
  | parkWrite (pslot : Nat)
  /-- TEND: draining (R80). -/
  | ending
  /-- Terminated: draining (R333). -/
  | killing
  /-- MIG or migrating access: draining, then packed (R198); continuation block and target core. -/
  | migDrain (a : Word) (target : Nat)
  /-- Packed and sent (R92). -/
  | migWait (a : Word) (target : Nat)
  | migRetry (a : Word) (target : Nat) (at_ : Nat)
  /-- RFE committed; its stores drain, then the restore (R331). -/
  | rfe (z : Bool)
  /-- Restored from a park record or about to run: fetch `a` at the clock given. -/
  | restore (a : Word) (at_ : Nat)
  deriving DecidableEq, Repr

/-- Table 1 of R65. -/
inductive Status where
  | free | active | parked | halted
  deriving DecidableEq, Repr

/-- Why a context is HALTED (R332, R334, R370, R372). -/
inductive HaltBy where
  | bkpt | breakpoint | watch | haltForm | line | saved
  deriving DecidableEq, Repr

/-- A steal round of a FREE context (R87). -/
structure Steal where
  /-- Logical id of the last victim tried. -/
  last : Nat := 0
  /-- Victims tried without success in this round. -/
  tried : Nat := 0
  fails : BitVec 16 := 0
  /-- CLK before which no attempt is made. -/
  notBefore : Nat := 0
  deriving DecidableEq, Repr

/-- One hardware context (R64, R65, R93). -/
structure Ctx where
  status : Status := .free
  gen : BitVec 8 := 0
  regs : Regs := {}
  task : Task := {}
  phase : Phase := .idle
  win : Window := {}
  /-- Accesses not yet done with, in access order (R191). -/
  accs : List Access := []
  /-- Number of the block being executed, for access order. -/
  blk : Nat := 0
  wait : Option Wait := none
  steal : Steal := {}
  /-- CLK of the last slot used, and the clock before which the context issues nothing. -/
  lastSlot : Option Nat := none
  busy : Nat := 0
  haltBy : Option HaltBy := none
  /-- What the debugger was told: cause and TADDR (R370, R372). -/
  haltCause : BitVec 8 := 0
  haltAddr : Word := 0
  pfills : List OwedFill := []
  /-- The lost-store trap owed before the next block (R201, R213): TADDR and TIDX. -/
  lost : Option (Word × BitVec 7) := none
  deriving DecidableEq, Repr

/-! ### Cores -/

/-- A record of the task deque, or a root (R81). -/
structure DequeRec where
  entry : Word
  arg0 : Word
  arg1 : Word
  join : Word
  gtid : Word
  domain : BitVec 3
  stamp : BitVec 48
  launch : Nat
  root0 : Bool := false
  deriving DecidableEq, Repr

/-- A migrating task in flight or in an arrival queue (R91, R92). -/
structure Packed where
  cont : Word
  regs : Regs
  task : Task
  sl : BitVec 24
  src : Nat
  srcCtx : Nat
  srcGen : BitVec 8
  /-- CLK at entry into the arrival queue. -/
  stamp : BitVec 48 := 0
  deriving DecidableEq, Repr

/-- A park slot in use (R182): the waiter and what the device keeps beside the record. -/
inductive PSlotState where
  /-- Taken by an attempt, or by a task whose record is not yet written. -/
  | reserved
  | parked | cancelSent | woken
  deriving DecidableEq, Repr

structure PSlot where
  st : PSlotState
  ctx : Nat
  gen : BitVec 8
  task : Task
  on : WaitOn
  cond : BitVec 2
  /-- Home core of the awaited word and its offset; for condition 00 the cluster. -/
  home : Nat
  off : Nat
  idx : Nat
  /-- CLK at parking. -/
  clk : Nat
  /-- The parked block and the wake address (Table 12). -/
  blk : Word := 0
  addr : Word := 0
  deriving DecidableEq, Repr

/-- A wake-table entry (R183). `core` is the waiter's physical core; the entry as read out shows its logical id. -/
structure WakeEntry where
  cond : BitVec 2
  pslot : Nat
  gen : BitVec 8
  ctx : Nat
  core : Nat
  off : Nat
  deriving DecidableEq, Repr

/-- A task the core will run again, as source 1 of R86. -/
inductive Requeue where
  /-- Woken from a park slot with the value the word held (R185, R217). -/
  | woken (pslot : Nat) (value : Word)
  /-- A wait that ran past WLIMIT (R187). -/
  | waitlim (pslot : Nat)
  /-- Restored from a save record (R338): block, registers, halted. -/
  | runnable (a : Word) (regs : Regs) (task : Task) (halted : Bool)
  deriving DecidableEq, Repr

/-- An action that holds a pool's port for several clocks (R18, R319): the clock from which the port is free of it, and the
bytes it touches, offset and size. -/
structure PortHold where
  till : Nat := 0
  touched : List (Nat × Nat) := []
  deriving DecidableEq, Repr

/-- One core beside its contexts (R11). -/
structure Core where
  regs : CoreRegs := {}
  /-- The NI's copy of the eight remote windows: w0, w1, w2 (R170). -/
  windows : Vector (Word × Word × Word) 8 := Vector.replicate 8 (0, 0, 0)
  seq : BitVec 51 := 0
  deque : List DequeRec := []
  arrivals : List Packed := []
  requeue : List Requeue := []
  pslots : List (Nat × PSlot) := []
  wakeTable : List (Nat × WakeEntry) := []
  stale : Nat := 0
  /-- MTCs to counters and selects committed in this clock: number and value (R367). -/
  mtcs : List (Nat × Word) := []
  /-- Who was served last at the pool's port beside the core: 0 TME, 1 DDE, 2 copy engine, 3 NI (R18). -/
  portLast : Nat := 3
  /-- Clock in which the port last served an access: it serves one in a clock (R18). -/
  portAt : Option Nat := none
  hold : PortHold := {}
  /-- The word the pool's scrubber reads next (R166). -/
  scrubNext : Nat := 0
  /-- CLK of the last PARKFULL notice (R186). -/
  parkfull : Option Nat := none
  /-- Agents that have posted a home-check notice since WPCTL was written (R373). -/
  watched : List Word := []
  deriving DecidableEq, Repr

/-! ### Clusters -/

/-- A TLB entry (R209). -/
structure TlbEntry where
  asid : BitVec 12
  part : Nat
  /-- VA page number in units of its size. -/
  vpage : Nat
  big : Bool
  /-- PA of the page. -/
  pa : Nat
  r : Bool
  w : Bool
  x : Bool
  at_ : Bool
  x1 : Bool
  st : BitVec 2
  c : Bool
  xslot : BitVec 14
  /-- The IA it stands for, and whether the stage-2 leaf maps 32 MiB (scope 010 of R222). -/
  ia : BitVec 48
  iaBig : Bool := false
  parityBad : Bool := false
  deriving DecidableEq, Repr

/-- A walk-cache entry: a table entry of stage 1 or 2 and where it was read (R209). -/
structure WalkEntry where
  stage2 : Bool
  asid : BitVec 12
  part : Nat
  /-- VA or IA the entry serves, cut at the level. -/
  level : Nat
  idx : Nat
  value : Word
  /-- IA of the entry, and whether stage 2 maps its page in 32 MiB. -/
  ia : BitVec 48
  iaBig : Bool := false
  parityBad : Bool := false
  deriving DecidableEq, Repr

/-- Error marks of a code-cache line (R49). -/
inductive LineErr where
  | none | single | double
  deriving DecidableEq, Repr

/-- A code-cache line: 64 bytes at PA 64·n (R389). -/
structure CodeLine where
  line : Nat
  data : List Byte
  err : LineErr := .none
  deriving DecidableEq, Repr

/-- A record of the fault queue still to be posted (R216). -/
structure PendRec where
  q : Word
  w0 : Word
  w1 : Word
  w2 : Word
  /-- The slot of the engine job that waits on the record (kind 6). -/
  job : Option (Nat × BitVec 8) := none
  deriving DecidableEq, Repr

/-- States of a job (R229, R233). -/
inductive JobState where
  | queued | running | waitRecord | ready | suspended (status : BitVec 8) | stopped
  /-- The word of its suspension is on its way. -/
  | leaving
  /-- The word of its ending is on its way. -/
  | ended
  deriving DecidableEq, Repr

/-- What a job does once the stop record it has sent is acknowledged (R285, R286, R303). -/
inductive Halt where
  /-- Wait on a kind-6 record for the page of this address; for a write. -/
  | page (a : Word) (write : Bool)
  /-- Suspend for software. -/
  | suspend (status detail : Nat)
  deriving DecidableEq, Repr

/-- An early end on its way: what the job has still to release or unmark, and its word (R267, R296). -/
structure Ending where
  status : Nat
  detail : Nat
  result : Nat
  owned : List Nat := []
  raised : List Nat := []
  deriving DecidableEq, Repr

/-- What a stop record tells of a TME job beside its frames (R285): sequence number and step of the leaf operation in
progress or next, result root, node slots and payload slots allocated. -/
structure Marks where
  seq : Nat := 0
  step : Nat := 0
  root : Nat := 0xFFFFFFFF
  nodes : Nat := 0
  runs : Nat := 0
  deriving DecidableEq, Repr

/-- A job in a slot of the engine queue (R227), with the plain-data form of the engine's progress: a TME or DDE job is
run again from its start at each step, the answers in `log` standing for what it has already done. -/
structure Job where
  engine : Nat
  desc : List Byte
  gtid : Word
  core : Nat
  ctx : Nat
  /-- ASID register of the issuing core at acceptance. -/
  asid : Word
  part : Nat
  st : JobState := .queued
  /-- OP and SUB of the command. -/
  form : Nat × Nat
  /-- Slots b and c and the operator of a DIAG form (R300). -/
  args : List Word := []
  /-- Core and pool offset of the completion word, and of the stop record or stack area once it has been checked. -/
  w : Nat × Nat
  sr : Option (Nat × Nat) := none
  /-- Answers of the operations the job has performed so far. -/
  log : List (List Nat) := []
  /-- Frames, outermost first: the words of each (R284, R303). -/
  frames : List (List Nat) := []
  /-- Nodes allocated and not handed over, and counts raised (R267); of a DDE job, nodes it has marked (R296). -/
  owned : List Nat := []
  raised : List Nat := []
  mark : Marks := {}
  /-- Where the node area of a DDE job's space stands, core and pool offset, and the space descriptor once its checks have
  passed. -/
  area : Nat × Nat := (0, 0)
  space : Option (Nat × Nat) := none
  /-- Words of operands the job has read, by memory key / 8, as it first read them (R255, R294). -/
  kept : List (Nat × Nat) := []
  /-- Words read for the operation in progress alone, and words of it that hold an uncorrectable error (R166). -/
  temp : List (Nat × Nat) := []
  bad : List Nat := []
  /-- Words read ahead of the operation that needs them (R199). -/
  early : List (Nat × Nat) := []
  /-- The answer of the arena operation in progress (R253). -/
  ans : Option (List Nat) := none
  halting : Option Halt := none
  ending : Option Ending := none
  /-- What RESULT is when the job ends early (R288). -/
  progress : Nat := 0
  /-- The resolve word of the kind-6 record the job waits on, and the FAR address. -/
  record : Option (Nat × Nat) := none
  /-- Leading frames complete (R243), whether the first-byte trace record has been written (R244), and the reasons of
  the chunks that have ended, 0 for success (R242). -/
  done : Nat := 0
  first : Bool := false
  chunks : List (Nat × Nat) := []
  /-- Reads and writes sent and not acknowledged (R199); of the frame in progress of a CPY or CPYS the destination words
  sent, by memory key. -/
  out : Nat := 0
  sent : List Nat := []
  /-- The job stands at a frame or step boundary (R283, R312). -/
  edge : Bool := false
  /-- HCANCEL has met the running job: it ends at its next boundary (R236). -/
  cancel : Bool := false
  /-- The cause for which the running job stops at its next boundary: 4 pre-emption, 5 eclipse line (R288, R312, R243). -/
  stopping : Option Nat := none
  /-- Chunks of a CPYX begun and not ended (R243). -/
  begun : List Nat := []
  /-- A CPYX has poisoned its page: accesses that the invalidation still waits for (R242, R223). -/
  inv : Option (List AccRef) := none
  /-- Nodes a TTYPE has retyped (R277). -/
  visited : List Nat := []
  /-- The chunk whose image page a CPYX waits for. -/
  chunk : Nat := 0
  /-- Bytes of the overlap of a CPY that have been overwritten, by address, with their old values (R238). -/
  saved : List (Nat × Byte) := []
  /-- CLK at acceptance (R354), and at the last stop by pre-emption or the eclipse line (Table 7 of R334). -/
  clk : Nat := 0
  stop : Nat := 0
  deriving DecidableEq, Repr

/-- A queue slot (R227, R232). -/
structure QSlot where
  gen : BitVec 8 := 0
  job : Option Job := none
  /-- Status last written by a job of the slot (R354). -/
  status : BitVec 8 := 0
  /-- Reserved for a woken waiter: GTID and the clock of the reservation. -/
  res : Option (Word × Nat) := none
  deriving DecidableEq, Repr

/-- A waiter of the job queue (R227): condition 00. -/
structure QWaiter where
  core : Nat
  ctx : Nat
  gen : BitVec 8
  pslot : Nat
  gtid : Word
  deriving DecidableEq, Repr

structure Cluster where
  regs : ClusterRegs := {}
  slots : List (Nat × QSlot) := []
  waiters : List QWaiter := []
  /-- Accepted jobs in service order: slot numbers. -/
  order : List Nat := []
  /-- CLK of the last acceptance (Table 1 of R227). -/
  accepted : Option Nat := none
  /-- MTCs to cluster-scope registers committed in this clock: local index, number, value (R106, R367). -/
  mtcs : List (Nat × Nat × Word) := []
  /-- Local index of the core accepted last, and of the context of each core served last (R232). -/
  lastAccept : Nat := 7
  lastServed : Vector Nat 8 := Vector.replicate 8 15
  /-- Slot of the job each engine runs: TME, DDE, copy. -/
  current : Vector (Option Nat) 3 := Vector.replicate 3 none
  /-- Replay queue, oldest first (R190). -/
  replay : List Req := []
  tlb : List TlbEntry := []
  walk : List WalkEntry := []
  code : List CodeLine := []
  /-- Code-cache lines whose single-bit error has been corrected (R49). -/
  codeFixed : Nat := 0
  /-- Slot h of the fault queue (R216). -/
  h : BitVec 6 := 0
  pend : List PendRec := []
  /-- Pages with an unresolved kind-4 record: slot and page (R220). -/
  hints : List (Nat × Nat) := []
  dropped4 : Nat := 0
  /-- Retries of blocks whose record found a busy slot (R216). -/
  retries : Nat := 0
  /-- A map or withdraw request whose invalidation has been applied: accesses it waits for, and the value of w3 (R225). -/
  mapping : Option (List AccRef × Word) := none
  ring : BitVec 4 := 0
  trace : List (List Word) := []
  deriving DecidableEq, Repr

/-! ### The module -/

/-- A breakpoint entry (R369). -/
structure Breakpoint where
  valid : Bool := false
  line : Bool := false
  gtid : Word := 0
  addr : Word := 0
  deriving DecidableEq, Repr

/-- A raised eclipse line (R334). -/
structure Eclipse where
  source : Nat
  gtid : Word
  clk : Nat
  /-- The stop-area header has been written. -/
  written : Bool := false
  deriving DecidableEq, Repr

/-- How far a pre-emption has come (R336, R337). -/
inductive PreStage where
  | grace | block | abort | saved
  deriving DecidableEq, Repr

structure Preempt where
  stage : PreStage
  /-- CLK at the request. -/
  clk : Nat
  records : Nat := 0
  small : Bool := false
  /-- What the device keeps of the tasks saved beside their records: launch, stamps, whether root 0. -/
  tasks : List (Task × Bool) := []
  deriving DecidableEq, Repr

/-- A partition (R351). -/
structure Partition where
  sup : Bool := false
  /-- Physical cluster of each logical cluster. -/
  map : List Nat := []
  abase : Nat := 0
  acount : Nat := 0
  s2root : Nat := 0
  stopa : Nat := 0
  savea : Nat := 0
  saveSize : Nat := 0
  partw : Word := 0
  q0 : Nat := 0
  q1 : Nat := 0
  q2 : Nat := 0
  be : Bool := true
  attached : Bool := false
  bps : Vector Breakpoint 16 := Vector.replicate 16 {}
  eclipse : Option Eclipse := none
  preempt : Option Preempt := none
  /-- Raises of the eclipse line asked for and not yet taken, with the GTID of the raising task (R334). -/
  raises : List (EclipseSource × Word) := []
  deriving DecidableEq, Repr

/-- A launch in flight (R345, R348, R350). -/
structure Launch where
  queue : Nat
  part : Nat
  cls : Nat
  tag : BitVec 16
  entry : Word
  arg : Word
  n : Nat
  placed : Nat := 0
  live : Nat := 0
  fmode : BitVec 3
  stealdom : BitVec 3
  wspin : BitVec 16
  wlimit : BitVec 32
  tvec : Word
  tsb : Word
  terminated : Bool := false
  done : Bool := false
  deriving DecidableEq, Repr

/-- A host work queue (R344). -/
structure WorkQueue where
  en : Bool := false
  loc : Nat := 0
  log2n : Nat := 0
  part : Nat := 0
  qclass : Nat := 0
  ring : Word := 0
  cring : Word := 0
  ie : Bool := false
  head : BitVec 32 := 0
  tail : BitVec 32 := 0
  chead : BitVec 32 := 0
  ctail : BitVec 32 := 0
  /-- Entries taken and not yet given a completion record. -/
  taken : Nat := 0
  deriving DecidableEq, Repr

/-- A host port (R343, R353, R355). -/
structure Port where
  op : BitVec 8 := 0
  busy : Bool := false
  done : Bool := false
  status : BitVec 8 := 0
  count : BitVec 32 := 0
  event : Word := 0
  param : List Word := [0, 0, 0, 0, 0, 0, 0, 0]
  /-- Every MSI-X vector is masked at reset (log 7). -/
  masked : Word := 0xFFFFFFFFFFFFFFFF
  pending : Word := 0
  /-- Messages sent, newest last. -/
  sent : List Nat := []
  /-- The last value a read of STAT or EVENT returned, which the reader alone sees. -/
  read : Word := 0
  deriving DecidableEq, Repr

/-- A management or debug request in arrival order (R352). -/
structure MgmtReq where
  path : ReqPath
  op : BitVec 8
  param : List Word := []
  /-- A request whose completion waits for later steps has been begun. -/
  begun : Bool := false
  /-- Core, context and generation of the task whose end the request waits for (R333, R93). -/
  target : Option (Nat × Nat × BitVec 8) := none
  deriving DecidableEq, Repr

/-- An umbra (R339): corners, fence, and how far its containment has come. -/
inductive UmbraStage where
  | ok | consumed | raised | fenced | reset | noticed
  deriving DecidableEq, Repr

structure Umbra where
  id : Nat
  x0 : Nat
  y0 : Nat
  x1 : Nat
  y1 : Nat
  stage : UmbraStage := .ok
  deriving DecidableEq, Repr

/-- A wake on its way (R185), a cancel (R187), a migration NACK (R92), an umbra NACK (R340). -/
structure Wake where
  core : Nat
  ctx : Nat
  gen : BitVec 8
  pslot : Nat
  value : Word
  deriving DecidableEq, Repr

structure Cancel where
  home : Nat
  off : Nat
  core : Nat
  pslot : Nat
  deriving DecidableEq, Repr

/-- Messages in flight (R190). -/
structure Net where
  channels : List (Source × Home × Req) := []
  homes : List (Home × Req) := []
  performed : List Reply := []
  replies : List Reply := []
  wakes : List Wake := []
  cancels : List Cancel := []
  migs : List (Nat × Packed) := []
  migNacks : List (Nat × Nat × BitVec 8) := []
  umbraNacks : List (Nat × Nat × BitVec 8) := []
  /-- Number of the next engine request, by which a TLBINV knows those it waits for (R223). -/
  serial : Nat := 0
  deriving DecidableEq, Repr

/-- Start progress (R360, R364). -/
inductive StartState where
  | off | running | managementOnly | unpowered
  deriving DecidableEq, Repr

/-- An entry of the start record (R361). -/
structure StepRec where
  outcome : BitVec 8 := 0
  method : BitVec 8 := 0
  detail : BitVec 16 := 0
  millis : BitVec 32 := 0
  deriving DecidableEq, Repr

/-- The two signatures that an image or a record carries (R362): whether the RSASSA-PSS and the SLH-DSA signature verify
against the public keys in the controller's ROM. -/
structure Signed where
  rsa : Bool := true
  slh : Bool := true
  deriving DecidableEq, Repr

/-- A configuration record (R351, R358, R362). -/
structure ConfigRecord where
  signed : Signed := {}
  version : BitVec 64 := 0
  s2root : Nat := 0
  stopa : Nat := 0
  savea : Nat := 0
  saveSize : Nat := 0
  partw : Word := 0x80440
  /-- For each peer link: the module ids admitted and the partition served. -/
  peers : List (List (BitVec 19) × Nat) := []
  deriving DecidableEq, Repr

/-- What management flash holds (R340, R360 to R362, R364). -/
structure Flash where
  /-- Signatures of the firmware image and of its second copy (R362, Table 9 of R360). -/
  image : Signed := {}
  copy : Signed := {}
  /-- Highest record version accepted so far (R362). -/
  accepted : BitVec 64 := 0
  /-- The configuration record, the one before it (Table 9 of R360), and the one the module has started with. -/
  record : ConfigRecord := {}
  previous : ConfigRecord := {}
  inUse : ConfigRecord := {}
  starts : BitVec 64 := 0
  clk12 : BitVec 64 := 0
  steps : Vector StepRec 12 := Vector.replicate 12 {}
  overtemp : Bool := false
  containments : List Nat := []
  deriving DecidableEq, Repr

/-- Host side, management and start of the module. -/
structure Mgmt where
  start : StartState := .off
  ports : Vector Port 2 := Vector.replicate 2 {}
  queues : List (Nat × WorkQueue) := []
  reqs : List MgmtReq := []
  umbrae : List Umbra := []
  meshSlots : Vector (BitVec 7) 64 := Vector.replicate 64 0
  memSlots : Vector (BitVec 7) 64 := Vector.replicate 64 0
  /-- A table written by operation 0x15 and not yet in force: false mesh, true memory (R357). -/
  nextSlots : List (Bool × Vector (BitVec 7) 64) := []
  hot95 : List Nat := []
  hot105 : List (Nat × Nat) := []
  /-- Module id of the peer behind each link, and peer traffic dropped (R358). -/
  peerIds : List (BitVec 19) := []
  peerDropped : Nat := 0
  flash : Flash := {}
  deriving DecidableEq, Repr

/-- Who moves next (R190): a context's issue slot, or a device step. -/
inductive Turn where
  | slot (core ctx : Nat)
  | event (i : Instr)
  deriving DecidableEq, Repr

/-- The instruction a form's meaning acts for: core, context, index in the block. -/
structure Cur where
  core : Nat := 0
  ctx : Nat := 0
  idx : Nat := 0
  deriving DecidableEq, Repr

/-- Soft errors the environment has caused and no check has met yet (R49, R166, R209, R210). -/
structure SoftErrors where
  /-- Keys of pool words with a single-bit error and with a double-bit error. -/
  single : List Nat := []
  double : List Nat := []
  /-- Physical addresses of critical leaves, each with the number of mismatching double reads to come. -/
  critical : List (Nat × Nat) := []
  deriving DecidableEq, Repr

structure State where
  /-- Bytes of pools, far memory and bus memory, in canonical form (`Mem.wf`). -/
  mem : List Host.Cell := []
  /-- Synchronising states of pool words, by word key; an unlisted word is 00 (R165). -/
  sync : List (Nat × BitVec 2) := []
  ctxs : List (Nat × Ctx) := []
  cores : List (Nat × Core) := []
  clusters : List (Nat × Cluster) := []
  parts : List (Nat × Partition) := []
  launches : List (Nat × Launch) := []
  nextLaunch : Nat := 0
  net : Net := {}
  mgmt : Mgmt := {}
  errs : SoftErrors := {}
  /-- Carrier capacity C in bytes (R20). -/
  capacity : Nat := 2 ^ 38
  /-- CLK (R116). -/
  clk : Word := 0
  /-- Events of the current clock still to be counted (R367): cluster or core scope, unit, source, context, count. -/
  evlog : List (Bool × Nat × Nat × Nat × Nat) := []
  sched : List Turn := []
  cur : Cur := {}
  freeCtr : Nat := 0
  deriving DecidableEq, Repr

/-- Each die is one umbra at module reset (R339): 12 by 6 clusters. -/
def dieUmbra (d : Nat) : Umbra :=
  { id := d, x0 := 12 * (d % 2), y0 := 6 * (d / 2), x1 := 12 * (d % 2) + 11, y1 := 6 * (d / 2) + 5 }

/-- The module right after reset: pools 0 and EMPTY (R165), CLK 0 (R116), generations 0 (R93, R227), sequence counters
0 (R79), PAGERQ 0 (R205), umbrae one to a die (R339). Values no rule gives: logs 2 to 9. -/
def State.reset : State :=
  { mgmt := { umbrae := (List.range 8).map dieUmbra } }

end Sys2Proof.Machine
end

