-- ==== Sys2Proof/Machine/Mem.lean ====
section
/-! DEFINITION. Memory as one canonical list of cells, its addresses, and little-endian words (R2, R20, R161). -/

namespace Sys2Proof.Machine

/-- What an unlisted byte reads as: 0. Pools by R165; far and bus memory by log 5. -/
def Mem.absent : Byte := 0

/-- The byte at a key. -/
def Mem.get : List Host.Cell → Nat → Byte
  | [], _ => Mem.absent
  | (j, v) :: t, k => if j == k then v else Mem.get t k

/-- Write a byte, keeping the canonical form: the value of an absent byte removes the entry. -/
def Mem.put (k : Nat) (b : Byte) : List Host.Cell → List Host.Cell
  | [] => if b == Mem.absent then [] else [(k, b)]
  | (j, v) :: t =>
    if k < j then (if b == Mem.absent then (j, v) :: t else (k, b) :: (j, v) :: t)
    else if j == k then (if b == Mem.absent then t else (k, b) :: t)
    else (j, v) :: Mem.put k b t

/-- Every byte with lo ≤ key < hi back to the absent value. -/
def Mem.wipe (lo hi : Nat) (m : List Host.Cell) : List Host.Cell := m.filter fun c => !(lo ≤ c.1 && c.1 < hi)

/-- Keys strictly rise from a bound. -/
def Mem.sortedFrom (lo : Nat) : List Host.Cell → Bool
  | [] => true
  | (j, v) :: t => lo ≤ j && v != Mem.absent && Mem.sortedFrom (j + 1) t

/-- The canonical form: keys strictly rise and no entry equals what an unlisted address reads as. -/
def Mem.wf (m : List Host.Cell) : Bool := Mem.sortedFrom 0 m

/-- Size of a pool (R161) and of its offset space. -/
def poolSize : Nat := 0x3C0000
def poolStride : Nat := 0x400000

/-- Key of a pool byte: physical core and offset (R161). -/
def poolKey (core off : Nat) : Nat := core * poolStride + off

/-- Key of a far-memory byte at a physical address (R20). -/
def farKey (pa : Nat) : Nat := 2 ^ 40 + pa

/-- Key of a byte of bus memory behind location `loc` of R344: 0, 1 host ports, 2 to 9 peer links. -/
def busKey (loc : Nat) (a : Nat) : Nat := (loc + 1) * 2 ^ 64 + a

/-- The link a physical address lies behind (R20). -/
def farLink (pa : Nat) : Nat := pa / 4096 % 32

/-- Bytes little-endian (R2). -/
def bytesOf : Nat → Nat → List Byte
  | 0, _ => []
  | n + 1, v => BitVec.ofNat 8 v :: bytesOf n (v / 256)

/-- The number little-endian bytes hold (R2). -/
def ofBytes : List Byte → Nat
  | [] => 0
  | b :: t => b.toNat + 256 * ofBytes t

def Mem.read (m : List Host.Cell) (k n : Nat) : List Byte := (List.range n).map fun i => Mem.get m (k + i)

def Mem.read64 (m : List Host.Cell) (k : Nat) : Word := BitVec.ofNat 64 (ofBytes (Mem.read m k 8))

/-- Bits [hi:lo] of a number (R2, R5). -/
def bits (v hi lo : Nat) : Nat := v / 2 ^ lo % 2 ^ (hi + 1 - lo)

def wbitsOf (w : Word) (hi lo : Nat) : Nat := Machine.bits w.toNat hi lo

/-! Register files by number; a number past the end reads the default and writes nothing. -/

def vget {α : Type} {n : Nat} (d : α) (v : Vector α n) (i : Nat) : α := v[i]?.getD d

def vset {α : Type} {n : Nat} (v : Vector α n) (i : Nat) (x : α) : Vector α n := v.setIfInBounds i x

/-- The list with entry i changed. -/
def lmod {α : Type} (l : List α) (i : Nat) (f : α → α) : List α := l.modify i f

end Sys2Proof.Machine
end

