-- ==== Sys2Proof/Machine/Eff.lean ====
section
/-! DEFINITION. The primitive changes a step can make. Every meaning is a list of them, so what a step can do to the
state is said once, in `Eff.apply`. -/

namespace Sys2Proof.Machine

/-! ### Reading the state -/

def ctxKey (core ctx : Nat) : Nat := core * 16 + ctx

def State.ctx (s : State) (core ctx : Nat) : Ctx := sget {} (ctxKey core ctx) s.ctxs
def State.core (s : State) (k : Nat) : Core := sget {} k s.cores
def State.cluster (s : State) (k : Nat) : Cluster := sget {} k s.clusters
def State.part? (s : State) (p : Nat) : Option Partition := (s.parts.find? (·.1 == p)).map (·.2)
def State.launch? (s : State) (n : Nat) : Option Launch := (s.launches.find? (·.1 == n)).map (·.2)
def State.queue (s : State) (q : Nat) : WorkQueue := sget {} q s.mgmt.queues
def State.curCtx (s : State) : Ctx := s.ctx s.cur.core s.cur.ctx

/-- The synchronising state of the pool word with this key (R165). -/
def State.syncOf (s : State) (word : Nat) : BitVec 2 := sget 0 word s.sync

/-- The state table without an entry for EMPTY words. -/
def setSync (word : Nat) (v : BitVec 2) (l : List (Nat × BitVec 2)) : List (Nat × BitVec 2) :=
  if v == 0 then l.filter (·.1 != word) else sset word v l

/-! ### Changes -/

inductive Eff where
  | ctx (core ctx : Nat) (x : Ctx)
  | core (k : Nat) (x : Core)
  | cluster (k : Nat) (x : Cluster)
  | part (p : Nat) (x : Partition)
  | dropPart (p : Nat)
  | launch (n : Nat) (x : Launch)
  | newLaunch (x : Launch)
  | net (x : Net)
  | mgmt (x : Mgmt)
  | errs (x : SoftErrors)
  | poke (key : Nat) (b : Byte)
  | wipe (lo hi : Nat)
  | sync (word : Nat) (v : BitVec 2)
  | wipeSync (lo hi : Nat)
  | tick
  | log (inCore : Bool) (unit src ctx n : Nat)
  | clearLog
  | drawFree (n : Nat)
  /-- The dies lose power (R364): their state is lost; carriers, hosts and peers keep their memory. -/
  | powerLoss (x : Mgmt)
  deriving DecidableEq, Repr

def Eff.apply (e : Eff) (s : State) : State :=
  match e with
  | .ctx k c x => { s with ctxs := sset (ctxKey k c) x s.ctxs }
  | .core k x => { s with cores := sset k x s.cores }
  | .cluster k x => { s with clusters := sset k x s.clusters }
  | .part p x => { s with parts := sset p x s.parts }
  | .dropPart p => { s with parts := s.parts.filter (·.1 != p) }
  | .launch n x => { s with launches := sset n x s.launches }
  | .newLaunch x => { s with launches := sset s.nextLaunch x s.launches, nextLaunch := s.nextLaunch + 1 }
  | .net x => { s with net := x }
  | .mgmt x => { s with mgmt := x }
  | .errs x => { s with errs := x }
  | .poke k b => { s with mem := Mem.put k b s.mem }
  | .wipe lo hi => { s with mem := Mem.wipe lo hi s.mem }
  | .sync w v => { s with sync := setSync w v s.sync }
  | .wipeSync lo hi => { s with sync := s.sync.filter fun e => !(lo ≤ e.1 && e.1 < hi) }
  | .tick => { s with clk := s.clk + 1 }
  | .log a u src c n => { s with evlog := s.evlog ++ [(a, u, src, c, n)] }
  | .clearLog => { s with evlog := [] }
  | .drawFree n => { s with freeCtr := s.freeCtr + n }
  | .powerLoss x => { State.reset with
      mgmt := x, mem := Mem.wipe 0 (poolKey 4608 0) s.mem, errs := { critical := s.errs.critical }, capacity := s.capacity
      sched := s.sched, freeCtr := s.freeCtr }

/-- Changes in order. -/
def applyAll (es : List Eff) (s : State) : State := es.foldl (fun s e => e.apply s) s

/-- A step that makes these changes. -/
def act (s : State) (es : List Eff) : Host.Outcome State Fault Refusal := .next (applyAll es s)

/-! ### Meanings of several changes, each seeing those before it -/

/-- A state and the changes made so far, newest first. -/
structure Run where
  s : State
  log : List Eff := []

/-- Meanings that read the state and make changes. -/
abbrev M := StateM Run

/-- Make a change. -/
def eff (e : Eff) : M Unit := modify fun r => { s := e.apply r.s, log := e :: r.log }

/-- The state with the changes made so far. -/
def getS : M State := do return (← get).s

/-- The changes a meaning makes, oldest first. -/
def changes (p : M Unit) (s : State) : List Eff := (p.run { s := s }).2.log.reverse

/-- The step that makes a meaning's changes, and no other. -/
def runM (p : M Unit) (s : State) : Host.Outcome State Fault Refusal := act s (changes p s)

/-! ### Small changes -/

def getCtx (core ctx : Nat) : M Ctx := do return (← getS).ctx core ctx
def setCtx (core ctx : Nat) (x : Ctx) : M Unit := eff (.ctx core ctx x)
def modCtx (core ctx : Nat) (f : Ctx → Ctx) : M Unit := do setCtx core ctx (f (← getCtx core ctx))
def getCore (k : Nat) : M Core := do return (← getS).core k
def modCore (k : Nat) (f : Core → Core) : M Unit := do eff (.core k (f (← getCore k)))
def getCluster (k : Nat) : M Cluster := do return (← getS).cluster k
def modCluster (k : Nat) (f : Cluster → Cluster) : M Unit := do eff (.cluster k (f (← getCluster k)))
def modNet (f : Net → Net) : M Unit := do eff (.net (f (← getS).net))
def modMgmt (f : Mgmt → Mgmt) : M Unit := do eff (.mgmt (f (← getS).mgmt))
def modPart (p : Nat) (f : Partition → Partition) : M Unit := do
  match (← getS).part? p with
  | some x => eff (.part p (f x))
  | none => pure ()
def modLaunch (n : Nat) (f : Launch → Launch) : M Unit := do
  match (← getS).launch? n with
  | some x => eff (.launch n (f x))
  | none => pure ()
def modQueue (q : Nat) (f : WorkQueue → WorkQueue) : M Unit :=
  modMgmt fun m => { m with queues := sset q (f (sget {} q m.queues)) m.queues }
def modPort (p : Nat) (f : Port → Port) : M Unit :=
  modMgmt fun m => { m with ports := vset m.ports p (f (vget {} m.ports p)) }

/-- Count an event of a core (R367, Table 3) or of a cluster (Table 4). -/
def countCore (k src ctx : Nat) (n : Nat := 1) : M Unit := eff (.log true k src ctx n)
def countCluster (k src : Nat) (n : Nat := 1) : M Unit := eff (.log false k src 0 n)

/-- Write bytes from a key up. -/
def pokes (key : Nat) : List Byte → M Unit
  | [] => pure ()
  | b :: t => do eff (.poke key b); pokes (key + 1) t

def peek (key n : Nat) : M (List Byte) := do return Mem.read (← getS).mem key n
def peek64 (key : Nat) : M Word := do return Mem.read64 (← getS).mem key
def poke64 (key : Nat) (v : Word) : M Unit := pokes key (bytesOf 8 v.toNat)

/-- A fresh free value of n bytes (log 9). -/
def freeBytes (n : Nat) : M (List Byte) := do
  let k := (← getS).freeCtr
  eff (.drawFree n)
  return (List.range n).map fun i => Config.freeByte (k + i)

def now : M Nat := do return (← getS).clk.toNat

end Sys2Proof.Machine
end

