-- ==== Sys2Proof/Machine/Operands.lean ====
section
/-! DEFINITION. Tokens, operand slots, guards and nulls (R30, R33 to R36), delivery and the dependence signature (R40),
and the width rules shared by the scalar forms (R43, R107). -/

namespace Sys2Proof.Machine

/-! ### Helpers of R43 -/

/-- wbits(wd). -/
def wbits : Width → Nat
  | .d => 64
  | .w => 32
  | .h => 16
  | .b => 8

/-- log2 of wbits(wd), the bits of a shift count. -/
def wlog : Width → Nat
  | .d => 6
  | .w => 5
  | .h => 4
  | .b => 3

/-- zext(v, n). -/
def zext (v : Word) (n : Nat) : Nat := v.toNat % 2 ^ n

/-- sext of a number's low n bits, read as two's complement. -/
def sextNat (v n : Nat) : Int := if v % 2 ^ n < 2 ^ (n - 1) then (v % 2 ^ n : Nat) else ((v % 2 ^ n : Nat) : Int) - 2 ^ n

/-- sext(v, n). -/
def sext (v : Word) (n : Nat) : Int := sextNat v.toNat n

/-- trunc(x, n) of an exact integer. -/
def truncNat (x : Int) (n : Nat) : Nat := (x % (2 ^ n : Int)).toNat

/-- trunc(x, 64) as a word. -/
def toWord (x : Int) : Word := BitVec.ofInt 64 x

/-- The sign-extended Z field (R31). -/
def zImm (z : BitVec 24) : Int := z.toInt

/-- ea(t, d) (R43). -/
def ea (t : Word) (d : Int) : Word := toWord ((t.toNat : Int) + d)

/-- Extend an exact value cut to n bits as signed or unsigned (R107). -/
def extS (v : Int) (n : Nat) : Word := toWord (sextNat (truncNat v n) n)
def extU (v : Int) (n : Nat) : Word := BitVec.ofNat 64 (truncNat v n)

/-- A predicate as the 64-bit integer 0 or 1 (R33). -/
def predWord (b : Bool) : Word := if b then 1 else 0

/-- rotl(v, s, n). -/
def rotl (v s n : Nat) : Nat :=
  let k := s % n
  (v % 2 ^ n * 2 ^ k + v % 2 ^ n / 2 ^ (n - k)) % 2 ^ n

/-- h(x) and sigitem(p, c, s) (R43). -/
def sigHash (x : Nat) : BitVec 16 := BitVec.ofNat 16 (x * 40503)
def sigItem (p c s : Nat) : Nat := p * 256 + c * 4 + s

/-! ### Tokens -/

/-- A token read as a 64-bit value. -/
def Token.word : Token → Word
  | .null => 0
  | .scalar w => w
  | .vector b _ _ => b.extractLsb' 0 64

/-- pred(t): bit 0. -/
def Token.pred (t : Token) : Bool := t.word.getLsbD 0

def Token.isNull : Token → Bool
  | .null => true
  | _ => false

def Token.vbits : Token → VBits
  | .vector b _ _ => b
  | .scalar w => w.setWidth 256
  | .null => 0

def Token.tag : Token → BitVec 4
  | .vector _ t _ => t
  | _ => 0

def Token.nulls : Token → BitVec 32
  | .vector _ _ n => n
  | _ => 0

def predTok (b : Bool) : Token := .scalar (predWord b)

/-! ### Operand slots -/

def Inst.slot (i : Inst) : Slot → Option Token
  | .a => i.a
  | .b => i.b
  | .c => i.c
  | .p => i.p

/-- Deliver a token to a slot. -/
def Inst.put (i : Inst) (s : Slot) (t : Token) : Inst :=
  match s with
  | .a => { i with a := some t }
  | .b => { i with b := some t }
  | .c => { i with c := some t }
  | .p => { i with p := some t }

/-- The token of a slot that holds one. -/
def Inst.tok (i : Inst) (s : Slot) : Token := (i.slot s).getD .null

/-- What an instruction does when its turn comes (R33, R34). -/
inductive Fires where
  | notReady | null | go
  deriving DecidableEq, Repr

/-- The guard lets the form act (R34). Of a word with GM = 11 met at run time R49 says that reserved bits are ignored, and not
how: the model waits for a p token, as the words with a guard do, and fires whatever it is (DESIGN CHOICE, log 55). -/
def guardPasses (gm : Guard) (p : Token) : Bool :=
  match gm with
  | .none | .reserved => true
  | .onTrue => !p.isNull && p.pred
  | .onFalse => !p.isNull && !p.pred

/-- Every used slot holds a token, the p slot being used when GM ≠ 00 (R30, R33). -/
def Inst.ready (i : Inst) (gm : Guard) (slots : List Slot) : Bool :=
  !i.issued && (gm == .none || i.p.isSome) && slots.all fun s => (i.slot s).isSome

/-- R33 and R34; `exempt` is ISNULL, whose data slot may hold null (R115). -/
def Inst.fires (i : Inst) (gm : Guard) (slots : List Slot) (exempt : Bool := false) : Fires :=
  if !i.ready gm slots then .notReady
  else if !guardPasses gm (i.tok .p) then .null
  else if !exempt && slots.any fun s => (i.tok s).isNull then .null
  else .go

/-- The data slots Table 9 gives a form. -/
def formSlots (f : FormInfo) : List Slot :=
  (if f.a.isSome then [Slot.a] else []) ++ (if f.b.isSome then [Slot.b] else []) ++
    (if f.c.isSome then [Slot.c] else [])

/-! ### The static shape of a block -/

/-- Indexes reachable from a set through instruction targets (R39): consumers have higher indexes (R30), so one pass
in ascending order finds them all. -/
def reachFrom : List Inst → Nat → List Nat → List Nat
  | [], _, acc => acc
  | i :: t, n, acc =>
    let acc' := if acc.contains n then
        match i.word.info with
        | some f => acc ++ (i.word.outs f).filterMap fun x => match x with
          | .slot _ k => some k.toNat
          | _ => none
        | none => acc
      else acc
    reachFrom t (n + 1) acc'

/-- The instructions that depend on instruction `i`, itself left out. -/
def Window.dependents (w : Window) (i : Nat) : List Nat := (reachFrom w.insts 0 [i]).filter (· != i)

/-- The irrevocable instruction of a sync block (R39). -/
def Window.commitPoint (w : Window) : Option Nat :=
  if w.header.isSync then w.insts.findIdx? fun i => (i.word.info.map (·.irr)).getD false else none

/-- A delivery of this producer counts in the block's signature (R40). -/
def Window.counted (w : Window) (i : Nat) : Bool :=
  match w.commitPoint with
  | none => true
  | some k => !(reachFrom w.insts 0 [k]).contains i

/-! ### Issue and delivery -/

def targetList (t : Targets) : List Target := [t.t0, t.t1, t.t2, t.t3].filterMap id

/-- Mark an instruction issued (R67). -/
def Window.issue (w : Window) (i : Nat) : Window :=
  { w with insts := lmod w.insts i fun x => { x with issued := true, seq := w.seq }, seq := w.seq + 1 }

/-- Consumer and slot number of a target for the signature (R40). -/
def targetItem (t : Target) (p : Nat) : Nat :=
  match t with
  | .slot s k => sigItem p k.toNat (Slot.bits s).toNat
  | .greg n => sigItem p (64 + n.toNat) 0
  | .vreg n => sigItem p (80 + n.toNat) 0

/-- One delivery: a token in flight to a slot, due at a clock, or a register delivery (R30, R67). -/
def Window.deliverTo (w : Window) (i seq due : Nat) (tok : Token) (t : Target) : Window :=
  match t with
  | .slot s k => { w with flights := w.flights ++ [{ due := due, slot := s, idx := k.toNat, tok := tok }] }
  | .greg n => { w with outs := w.outs ++ [{ seq := seq, src := i, vec := false, n := n.toNat, tok := tok }] }
  | .vreg n => { w with outs := w.outs ++ [{ seq := seq, src := i, vec := true, n := n.toNat, tok := tok }] }

/-- emit(v) of R43: deliver to every target, add to the signature sum, mark the form fired and resolved. -/
def Window.emit (w : Window) (i : Nat) (ts : List Target) (tok : Token) (due : Nat) : Window :=
  let seq := (w.insts[i]?.map (·.seq)).getD 0
  let w1 := ts.foldl (fun w t => w.deliverTo i seq due tok t) w
  let add := if w.counted i then ts.foldl (fun a t => a + sigHash (targetItem t i)) 0 else 0
  { w1 with
    sum := w1.sum + add
    insts := lmod w1.insts i fun x => { x with fired := true, resolved := true } }

/-- Tokens due by clock t reach their slots (R67). -/
def Window.land (w : Window) (t : Nat) : Window :=
  { w with
    insts := (w.flights.filter (·.due ≤ t)).foldl (fun l f => lmod l f.idx fun x => x.put f.slot f.tok) w.insts
    flights := w.flights.filter fun f => t < f.due }

/-- A result due `lat` slots of 16 clocks from now (R64, R67). -/
def dueAt (s : State) (lat : Nat) : Nat := s.clk.toNat + 16 * lat

def Ctx.onWin (c : Ctx) (f : Window → Window) : Ctx := { c with win := f c.win }

/-- A form that only makes a token: fire it in the current context. Null by R34, else the value the form computes from
its slots and the block-start registers. -/
def pureForm (gm : Guard) (ts : List Target) (slots : List Slot) (lat : Nat) (exempt : Bool)
    (v : Inst → Snap → Token) (s : State) : Host.Outcome State Fault Refusal :=
  let c := s.curCtx
  let k := s.cur.idx
  match c.win.insts[k]? with
  | none => act s []
  | some i =>
    let out := fun t => act s [.ctx s.cur.core s.cur.ctx (c.onWin fun w => (w.issue k).emit k ts t (dueAt s lat))]
    match i.fires gm slots exempt with
    | .notReady => act s []
    | .null => out .null
    | .go => out (v i c.win.snap)

/-- A pure format A form. -/
def pureA (f : FmtA) (slots : List Slot) (lat : Nat) (v : Inst → Snap → Token) (s : State) :
    Host.Outcome State Fault Refusal := pureForm f.gm (targetList f.t) slots lat false v s

end Sys2Proof.Machine
end

