-- ==== Sys2Proof/Machine/Float.lean ====
section
/-! DEFINITION. Number formats (R122 to R134): decoding, exact arithmetic, rnd of R130 and R131, NaNs of R132, triads,
fixed point, and conversion (R140, R141). -/

namespace Sys2Proof.Machine

/-- A floating-point format: exponent and fraction bits and bias (Table 2 of R124). -/
structure FloatFmt where
  eb : Nat
  fb : Nat
  bias : Nat
  e4m3 : Bool := false
  deriving DecidableEq, Repr

def f64 : FloatFmt := { eb := 11, fb := 52, bias := 1023 }
def f32 : FloatFmt := { eb := 8, fb := 23, bias := 127 }
def bf16 : FloatFmt := { eb := 8, fb := 7, bias := 127 }
def f16 : FloatFmt := { eb := 5, fb := 10, bias := 15 }
def e4m3 : FloatFmt := { eb := 4, fb := 3, bias := 7, e4m3 := true }
def e5m2 : FloatFmt := { eb := 5, fb := 2, bias := 15 }

/-- The float format of a tag (R122). -/
def floatOf (tag : Nat) : Option FloatFmt :=
  match tag with
  | 5 => some f64
  | 6 => some f32
  | 7 => some bf16
  | 8 => some f16
  | 9 => some e4m3
  | 10 => some e5m2
  | _ => none

/-- Bits of a value of a tag (Table 1 of R122); NONE is stored by bytes (R143). A value of a reserved tag 13 to 15, which a word
that was not accepted may name or a changed save area may bring in, keeps its tag and has 8-bit lanes (DESIGN CHOICE,
log 56). -/
def tagBits (tag : Nat) : Nat :=
  match tag with
  | 1 => 8
  | 2 => 16
  | 3 => 32
  | 4 => 64
  | 5 => 64
  | 6 => 32
  | 7 => 16
  | 8 => 16
  | 9 => 8
  | 10 => 8
  | 11 => 32
  | 12 => 32
  | _ => 8

/-- An FP8 format, whose overflow follows R131. -/
def FloatFmt.fp8 (f : FloatFmt) : Bool := f.e4m3 || f.fb == 2

/-- Rounding modes, coded as FMODE[1:0] (R101). -/
inductive Rmode where
  | rne | rtz | rup | rdn
  deriving DecidableEq, Repr

def rmodeOf (c : Nat) : Rmode :=
  match c with
  | 0 => .rne
  | 1 => .rtz
  | 2 => .rup
  | _ => .rdn

/-- rmode(xf): FMODE[1:0] for 0, an override for 1 to 4 (R43). A reserved XF of 5 to 15, which no accepted block carries,
rounds toward −∞ (DESIGN CHOICE, log 56). -/
def rmode (xf : Nat) (fmode : BitVec 3) : Rmode := if xf == 0 then rmodeOf (fmode.toNat % 4) else rmodeOf (xf - 1)

/-- A decoded value: a NaN with its payload aligned at bit 50 (R125, R132), an infinity, or ±m·2^e. -/
inductive FVal where
  | nan (neg : Bool) (payload : Nat)
  | inf (neg : Bool)
  | fin (neg : Bool) (m : Nat) (e : Int)
  deriving DecidableEq, Repr

def FVal.isNan : FVal → Bool
  | .nan _ _ => true
  | _ => false

def FVal.isInf : FVal → Bool
  | .inf _ => true
  | _ => false

def FVal.neg : FVal → Bool
  | .nan s _ => s
  | .inf s => s
  | .fin s _ _ => s

def FVal.isZero : FVal → Bool
  | .fin _ m _ => m == 0
  | _ => false

/-- Decode a pattern (R124, R125). -/
def FloatFmt.decode (f : FloatFmt) (v : Nat) : FVal :=
  let s := v.testBit (f.eb + f.fb)
  let e := v / 2 ^ f.fb % 2 ^ f.eb
  let m := v % 2 ^ f.fb
  if f.e4m3 && e == 15 && m == 7 then .nan s 0
  else if !f.e4m3 && e == 2 ^ f.eb - 1 then
    if m == 0 then .inf s else .nan s (m % 2 ^ (f.fb - 1) * 2 ^ (52 - f.fb))
  else if e == 0 then .fin s m (1 - f.bias - f.fb)
  else .fin s (2 ^ f.fb + m) ((e : Int) - f.bias - f.fb)

def FloatFmt.signBit (f : FloatFmt) (neg : Bool) : Nat := if neg then 2 ^ (f.eb + f.fb) else 0

/-- The quiet NaN of a format with a sign and an aligned payload (R132). -/
def FloatFmt.nan (f : FloatFmt) (neg : Bool) (payload : Nat) : Nat :=
  f.signBit neg + (if f.e4m3 then 0x7F
    else (2 ^ f.eb - 1) * 2 ^ f.fb + 2 ^ (f.fb - 1) + payload / 2 ^ (52 - f.fb) % 2 ^ (f.fb - 1))

/-- The largest finite pattern, without sign. -/
def FloatFmt.maxFin (f : FloatFmt) : Nat := if f.e4m3 then 0x7E else (2 ^ f.eb - 1) * 2 ^ f.fb - 1

/-- ±infinity; E4M3, which has none, gives its NaN (R131). -/
def FloatFmt.inf (f : FloatFmt) (neg : Bool) : Nat :=
  f.signBit neg + (if f.e4m3 then 0x7F else (2 ^ f.eb - 1) * 2 ^ f.fb)

/-- Step 3 of R130, with R131 for FP8. -/
def FloatFmt.overflow (f : FloatFmt) (m : Rmode) (sat neg : Bool) : Nat :=
  if f.fp8 && sat then f.signBit neg + f.maxFin
  else
    let big := match m with
      | .rne => true
      | .rtz => false
      | .rup => !neg
      | .rdn => neg
    if big then f.inf neg else f.signBit neg + f.maxFin

/-- Round q + r/d to an integer under a mode (0 ≤ r < d); `neg` is the sign of the value. -/
def roundQ (m : Rmode) (neg : Bool) (q r d : Nat) : Nat :=
  if r == 0 then q
  else match m with
    | .rne => if 2 * r > d || (2 * r == d && q % 2 == 1) then q + 1 else q
    | .rtz => q
    | .rup => if neg then q else q + 1
    | .rdn => if neg then q + 1 else q

/-- floor(log2(p/q)) for positive p and q. -/
def log2Q (p q : Nat) : Int :=
  let l : Int := (p.log2 : Int) - q.log2
  let ok := if 0 ≤ l then q * 2 ^ l.toNat ≤ p else q ≤ p * 2 ^ (-l).toNat
  if ok then l else l - 1

/-- rnd(x, f, m) for x = ±p/q·2^e with p, q positive (R130, R131). -/
def FloatFmt.round (f : FloatFmt) (m : Rmode) (sat neg : Bool) (p q : Nat) (e : Int) : Nat :=
  let l := max (log2Q p q + e) (1 - f.bias)
  let sh := e - l + f.fb
  let n := if 0 ≤ sh then p * 2 ^ sh.toNat else p
  let d := if 0 ≤ sh then q else q * 2 ^ (-sh).toNat
  let r := roundQ m neg (n / d) (n % d) d
  let l' := if r ≥ 2 ^ (f.fb + 1) then l + 1 else l
  let r' := if r ≥ 2 ^ (f.fb + 1) then r / 2 else r
  let pat := if r' < 2 ^ f.fb then r' else (l' + f.bias).toNat * 2 ^ f.fb + (r' - 2 ^ f.fb)
  if pat > f.maxFin then f.overflow m sat neg else f.signBit neg + pat

/-- An exact finite result ±m·2^e, zeros keeping their sign. -/
def FloatFmt.ofFin (f : FloatFmt) (md : Rmode) (sat neg : Bool) (m : Nat) (e : Int) : Nat :=
  if m == 0 then f.signBit neg else f.round md sat neg m 1 e

/-- A decoded value brought into a format (R130 to R132, R141). -/
def FloatFmt.ofVal (f : FloatFmt) (md : Rmode) (sat : Bool) (v : FVal) : Nat :=
  match v with
  | .nan s p => f.nan s p
  | .inf s => if f.e4m3 && sat then f.signBit s + f.maxFin else f.inf s
  | .fin s m e => f.ofFin md sat s m e

/-! ### Exact operations: the result as a decoded value, or rounded directly -/

/-- The NaN that survives among the operands, in slot order (R132). Payloads of operands of different formats are compared
aligned at bit 50, as their values in the result would stand: R125 numbers each format's payload by itself, and no rule
compares them (DESIGN CHOICE, log 52). -/
def pickNan : List FVal → Option FVal
  | [] => none
  | .nan s p :: t =>
    match pickNan t with
    | some (.nan s' p') => if p' < p then some (.nan s' p') else some (.nan s p)
    | _ => some (.nan s p)
  | _ :: t => pickNan t

/-- Sign of an exact zero sum of two signed terms (R130). -/
def zeroSign (md : Rmode) (s t : Bool) : Bool := if s == t then s else md == .rdn

/-- Exact sum of two finite values, zero signed under the mode. -/
def addFin (md : Rmode) (s : Bool) (m : Nat) (e : Int) (t : Bool) (n : Nat) (g : Int) : FVal :=
  let b := min e g
  let x : Int := (m * 2 ^ (e - b).toNat : Nat)
  let y : Int := (n * 2 ^ (g - b).toNat : Nat)
  let v := (if s then -x else x) + (if t then -y else y)
  if v = 0 then .fin (zeroSign md s t) 0 0 else .fin (v < 0) v.natAbs b

/-- a + b exactly; a generated NaN carries the payload given (R133, R136). -/
def fvAdd (md : Rmode) (pay : Nat) (a b : FVal) : FVal :=
  match pickNan [a, b] with
  | some n => n
  | none =>
    match a, b with
    | .inf s, .inf t => if s == t then .inf s else .nan false pay
    | .inf s, _ => .inf s
    | _, .inf t => .inf t
    | .fin s m e, .fin t n g => addFin md s m e t n g
    | _, _ => .nan false pay

def FVal.negate : FVal → FVal
  | .nan s p => .nan s p
  | .inf s => .inf !s
  | .fin s m e => .fin (!s) m e

/-- a − b; a NaN operand keeps its own sign. -/
def fvSub (md : Rmode) (pay : Nat) (a b : FVal) : FVal := fvAdd md pay a b.negate

/-- a × b exactly. -/
def fvMul (pay : Nat) (a b : FVal) : FVal :=
  match pickNan [a, b] with
  | some n => n
  | none =>
    let s := a.neg ^^ b.neg
    match a, b with
    | .fin _ m e, .fin _ n g => .fin s (m * n) (e + g)
    | x, y => if x.isZero || y.isZero then .nan false pay else .inf s

/-- An exact product of factors: a NaN factor comes before a NaN the product makes (R132). -/
def fvProd (pay : Nat) (xs : List FVal) : FVal :=
  match pickNan xs with
  | some n => n
  | none => match xs with
    | [] => .fin false 1 0
    | x :: t => t.foldl (fvMul pay) x

/-- The exact sum of two products, each with the payload of a NaN it makes: a NaN factor comes before a NaN that the
products or the sum make (R132). -/
def fvSumProd (md : Rmode) (pay : Nat) (x y : Nat × List FVal) : FVal :=
  match pickNan (x.2 ++ y.2) with
  | some n => n
  | none => fvAdd md pay (fvProd x.1 x.2) (fvProd y.1 y.2)

/-- a × b + c exactly, one value to round (R136). -/
def fvFma (md : Rmode) (pay : Nat) (a b c : FVal) : FVal :=
  match pickNan [a, b, c] with
  | some n => n
  | none => fvAdd md pay (fvMul pay a b) c

/-- rnd(a / b, f, m) with the specials of FDIV (R136). -/
def FloatFmt.div (f : FloatFmt) (md : Rmode) (sat : Bool) (a b : FVal) : Nat :=
  match pickNan [a, b] with
  | some n => f.ofVal md sat n
  | none =>
    let s := a.neg ^^ b.neg
    match a, b with
    | .inf _, .inf _ => f.nan false 0
    | .inf _, _ => f.ofVal md sat (.inf s)
    | _, .inf _ => f.signBit s
    | .fin _ m e, .fin _ n g =>
      if n == 0 then (if m == 0 then f.nan false 0 else f.ofVal md sat (.inf s))
      else if m == 0 then f.signBit s
      else f.round md sat s m n (e - g)
    | _, _ => f.nan false 0

/-- Integer square root by bits, from bit k down. -/
def isqrtFrom (v : Nat) : Nat → Nat → Nat
  | 0, r => if (r + 1) * (r + 1) ≤ v then r + 1 else r
  | k + 1, r => isqrtFrom v k (if (r + 2 ^ (k + 1)) * (r + 2 ^ (k + 1)) ≤ v then r + 2 ^ (k + 1) else r)

def isqrt (v : Nat) : Nat := isqrtFrom v (v.log2 / 2 + 1) 0

/-- rnd(√a, f, m) with the specials of FSQRT (R136). The root is taken to 2^-130 of a unit of the operand's scale
with a sticky bit below it, which decides every rounding exactly. -/
def FloatFmt.sqrt (f : FloatFmt) (md : Rmode) (sat : Bool) (a : FVal) : Nat :=
  match a with
  | .nan s p => f.nan s p
  | .inf s => if s then f.nan false 0 else f.ofVal md sat (.inf false)
  | .fin s m e =>
    if m == 0 then f.signBit s
    else if s then f.nan false 0
    else
      let odd := e % 2 = 1
      let m' := if odd then 2 * m else m
      let e' := if odd then e - 1 else e
      let v := m' * 2 ^ 260
      let r := isqrt v
      let st := if r * r == v then 0 else 1
      f.round md sat false (2 * r + st) 1 (e' / 2 - 131)

/-- Exact order of two values that are no NaNs: −0 = +0. -/
def fvLt (a b : FVal) : Bool :=
  match a, b with
  | .nan _ _, _ => false
  | _, .nan _ _ => false
  | .inf s, .inf t => s && !t
  | .inf s, .fin _ _ _ => s
  | .fin _ _ _, .inf t => !t
  | .fin s m e, .fin t n g =>
    let b := min e g
    let x : Int := (m * 2 ^ (e - b).toNat : Nat)
    let y : Int := (n * 2 ^ (g - b).toNat : Nat)
    (if s then -x else x) < (if t then -y else y)

def fvEq (a b : FVal) : Bool := !a.isNan && !b.isNan && !fvLt a b && !fvLt b a

/-- a before b in the order of FMIN: −0 below +0 (R137). -/
def fvBefore (a b : FVal) : Bool := fvLt a b || (fvEq a b && a.neg && !b.neg)

/-- FMIN and FMAX on patterns (R137). -/
def FloatFmt.minMax (f : FloatFmt) (wantMax : Bool) (x y : Nat) : Nat :=
  let a := f.decode x
  let b := f.decode y
  match a.isNan, b.isNan with
  | true, true => match pickNan [a, b] with
    | some n => f.ofVal .rne false n
    | none => x
  | true, false => y
  | false, true => x
  | false, false => if wantMax then (if fvBefore a b then y else x) else (if fvBefore b a then y else x)

/-! ### Integers, fixed point, triads -/

/-- Round a finite value scaled by 2^k to an integer (R141, R147). -/
def roundInt (md : Rmode) (s : Bool) (m : Nat) (e : Int) (k : Int) : Int :=
  let sh := e + k
  let n := if 0 ≤ sh then m * 2 ^ sh.toNat else m
  let d := if 0 ≤ sh then 1 else 2 ^ (-sh).toNat
  let r := roundQ md s (n / d) (n % d) d
  if s then -(r : Int) else r

def clampInt (v lo hi : Int) : Int := max lo (min hi v)

/-- Clamp to w-bit two's complement. -/
def clampW (w : Nat) (v : Int) : Int := clampInt v (-(2 ^ (w - 1))) (2 ^ (w - 1) - 1)

/-- tri_to_int (R128). -/
def triToInt (t : Nat) : Int :=
  let c1 := t % 1024 % 1023
  let c2 := t / 1024 % 1024
  let c3 := t / 2 ^ 20 % 2048 % 1025
  let x := (c1 * 537395200 + c2 * 1072692225 + c3 * 537394176) % 1073740800
  if x ≥ 536870400 then (x : Int) - 1073740800 else x

/-- The triad of an integer (R128). -/
def intToTri (v : Int) : Nat := (v % 1025).toNat * 2 ^ 20 + (v % 1024).toNat * 1024 + (v % 1023).toNat

/-- Channelwise product or sum (R129). -/
def triOp (op : Nat → Nat → Nat) (x y : Nat) : Nat :=
  let c1 := op (x % 1024 % 1023) (y % 1024 % 1023) % 1023
  let c2 := op (x / 1024 % 1024) (y / 1024 % 1024) % 1024
  let c3 := op (x / 2 ^ 20 % 2048 % 1025) (y / 2 ^ 20 % 2048 % 1025) % 1025
  c3 * 2 ^ 20 + c2 * 1024 + c1

/-- Decode a pattern by its tag as an exact value (R141): integers signed, FX32 as q·2^−16, TRI through R128. -/
def decodeTag (tag : Nat) (v : Nat) : FVal :=
  match floatOf tag with
  | some f => f.decode v
  | none =>
    let i : Int := if tag == 12 then triToInt v else sextNat v (tagBits tag)
    .fin (i < 0) i.natAbs (if tag == 11 then -16 else 0)

/-- CVT of one value (R140, R141): the result as a pattern of the target's width. -/
def convert (src dst : Nat) (md : Rmode) (sat : Bool) (v : Nat) : Nat :=
  let v := v % 2 ^ tagBits src
  if src == dst then v
  else
    let x := decodeTag src v
    match floatOf dst with
    | some f => f.ofVal md sat x
    | none =>
      let w := tagBits dst
      if dst == 12 then
        match x with
        | .nan _ _ => 0
        | .inf s => intToTri (if s then -(2 ^ 63) else 2 ^ 63 - 1)
        | .fin s m e => intToTri (clampW 64 (roundInt md s m e 0))
      else
        match x with
        | .nan _ _ => 0
        | .inf s => if s then 2 ^ (w - 1) else 2 ^ (w - 1) - 1
        | .fin s m e => truncNat (clampW w (roundInt md s m e (if dst == 11 then 16 else 0))) w

/-- Whether a tag's values are two's complement patterns, which CVT and VEXT extend with their sign. -/
def tagSigned (tag : Nat) : Bool := (1 ≤ tag && tag ≤ 4) || tag == 11

/-- A pattern of a tag as a 64-bit token (R140). -/
def tagWord (tag v : Nat) : Word :=
  if tagSigned tag then extS (v : Nat) (tagBits tag) else BitVec.ofNat 64 (v % 2 ^ tagBits tag)

end Sys2Proof.Machine
end

