-- ==== Sys2Proof/Machine/Space.lean ====
section
/-! DEFINITION. Address spaces (R167, R169, R203), the Local Protection Unit (R168), remote windows (R169, R170), and
the numbering of cores inside a partition (R8, R9, R391). -/

namespace Sys2Proof.Machine

/-- An address by its space, with the layout checks of R167, R169 and R203 made for an access of a size. -/
inductive Sp where
  | loc (off : Nat)
  | core (id off : Nat)
  | far (va : Nat)
  | bad
  deriving DecidableEq, Repr

def classify (a : Word) (size : Nat) : Sp :=
  let n := a.toNat
  match bits n 63 60 with
  | 0 => if bits n 59 22 == 0 && bits n 21 0 + size ≤ poolSize then .loc (bits n 21 0) else .bad
  | 1 => if bits n 59 48 == 0 && bits n 34 22 == 0 && bits n 47 35 < 4608 then .core (bits n 47 35) (bits n 21 0)
         else .bad
  | 8 => if bits n 59 57 == 0 then .far (bits n 56 0) else .bad
  | _ => .bad

/-- A CORE address (R169). -/
def coreAddr (id off : Nat) : Word := BitVec.ofNat 64 (2 ^ 60 + id * 2 ^ 35 + off)

/-- Rights of Table 7. -/
structure Rights where
  r : Bool := false
  w : Bool := false
  s : Bool := false
  deriving DecidableEq, Repr

/-- Whether a word's rights bits [62:60] grant what a form needs. -/
def grants (w : Word) (need : Rights) : Bool :=
  (!need.r || w.getLsbD 62) && (!need.w || w.getLsbD 61) && (!need.s || w.getLsbD 60)

/-- Fields of LPROTn (Table 5): LIMIT and BASE with the bits that read as 0. -/
def lprotLimit (w : Word) : Nat := wbitsOf w 43 25 * 8
def lprotBase (w : Word) : Nat := wbitsOf w 21 3 * 8

/-- A region admits an access of a context to offsets lo to hi − 1 (R168). -/
def regionAdmits (w : Word) (ctx lo hi : Nat) (need : Rights) : Bool :=
  w.getLsbD 63 && w.getLsbD (44 + ctx) && lprotBase w ≤ lo && hi ≤ lprotLimit w && grants w need

/-- R168: some region permits the access. -/
def lpuOk (lp : Vector Word 8) (ctx lo size : Nat) (need : Rights) : Bool :=
  lp.toList.any fun w => regionAdmits w ctx lo (lo + size) need

/-- One remote window admits the request (R169). -/
def windowAdmits (w : Word × Word × Word) (asid : Nat) (off size : Nat) (need : Rights) : Bool :=
  w.1.getLsbD 63 && wbitsOf w.1 21 0 ≤ off && off + size ≤ wbitsOf w.1 43 22 &&
    ((asid ^^^ wbitsOf w.2.2 27 16) &&& wbitsOf w.2.2 11 0) == 0 && grants w.1 need

/-- The lowest-numbered window that admits the request (R169). -/
def findWindow (ws : Vector (Word × Word × Word) 8) (asid off size : Nat) (need : Rights) :
    Option (Word × Word × Word) := ws.toList.find? fun w => windowAdmits w asid off size need

/-- The pool offset a window gives, unless the relocated access passes the end of the pool (R169). -/
def windowOffset (ws : Vector (Word × Word × Word) 8) (asid off size : Nat) (need : Rights) : Option Nat :=
  match findWindow ws asid off size need with
  | none => none
  | some w =>
    let o := wbitsOf w.2.1 21 0 + (off - wbitsOf w.1 21 0)
    if o + size ≤ poolSize then some o else none

/-! ### Partitions and numbering -/

/-- The partition a physical cluster belongs to, and its logical cluster number (R391). -/
def State.owner (s : State) (cluster : Nat) : Option (Nat × Nat) :=
  s.parts.findSome? fun p => (p.2.map.findIdx? (· == cluster)).map fun i => (p.1, i)

def State.partOf (s : State) (core : Nat) : Nat := ((s.owner (core / 8)).map (·.1)).getD 64

def State.partRec (s : State) (core : Nat) : Partition := (s.part? (s.partOf core)).getD {}

/-- The logical core id of a physical core (R8, R9). -/
def State.logical (s : State) (core : Nat) : Nat :=
  match s.owner (core / 8) with
  | some (_, i) => i * 8 + core % 8
  | none => core

/-- The physical core of a logical core id in a partition; none when the partition holds no such core. -/
def physIn (p : Partition) (id : Nat) : Option Nat := p.map[id / 8]?.map fun k => k * 8 + id % 8

def State.phys (s : State) (part id : Nat) : Option Nat := ((s.part? part).bind fun p => physIn p id)

/-- The supervisor partition (R102, R205). -/
def State.supPart (s : State) : Option Nat := (s.parts.find? (·.2.sup)).map (·.1)

/-! ### Fences (R339, R340) -/

/-- The umbra of a physical cluster, whose identity logical coordinates are x = k mod 24, y = k div 24 (R8, R339). -/
def umbraOf (us : List Umbra) (cluster : Nat) : Option Umbra :=
  us.find? fun u => u.x0 ≤ cluster % 24 && cluster % 24 ≤ u.x1 && u.y0 ≤ cluster / 24 && cluster / 24 ≤ u.y1

/-- The umbra of a home is fenced (R340). -/
def State.fencedHome (s : State) (h : Home) : Bool :=
  match h with
  | .pool k => (match umbraOf s.mgmt.umbrae (k / 8) with
    | some u => u.stage == .fenced || u.stage == .reset || u.stage == .noticed
    | none => false)
  | .far _ => false

/-- The cluster's requests to a core's pool meet the fence of another umbra (R340). -/
def State.nacks (s : State) (cl core : Nat) : Bool :=
  s.fencedHome (.pool core) && (umbraOf s.mgmt.umbrae (core / 8)).map (·.id) != (umbraOf s.mgmt.umbrae cl).map (·.id)

/-- Where PAGERQ places the cluster's pager area: physical core and pool offset; none when it is 0 or names no core
(R205, R390). -/
def State.pagerArea (s : State) (cluster : Nat) : Option (Nat × Nat) :=
  let q := (s.cluster cluster).regs.pagerq
  if q == 0 then none
  else match classify q 0x1000, s.supPart with
    | .core id off, some p => (s.phys p id).map fun k => (k, off)
    | _, _ => none

/-- The pager area the cluster's requests reach: an area behind a fence is none (R340; DEDUCED, log 46). -/
def State.pager (s : State) (cluster : Nat) : Option (Nat × Nat) :=
  (s.pagerArea cluster).filter fun p => !s.nacks cluster p.1

/-- ASID and S1ROOT of the ASID register (R204). -/
def asidOf (r : Word) : Nat := wbitsOf r 11 0
def s1Of (r : Word) : Nat := wbitsOf r 47 12

/-- The pool map of Table 3 (R163). -/
def arenaBytes (partw : Word) : Nat := 16384 * wbitsOf partw 7 0
def stackBytes (partw : Word) : Nat := 4096 * wbitsOf partw 15 8
def parkBytes (partw : Word) : Nat := 16384 * wbitsOf partw 23 16
def parkBase (partw : Word) : Nat := poolSize - parkBytes partw
def arenaBase (partw : Word) : Nat := poolSize - parkBytes partw - 16 * stackBytes partw - arenaBytes partw
def stackBase (partw : Word) (ctx : Nat) : Nat := arenaBase partw + arenaBytes partw + ctx * stackBytes partw
/-- Number of park slots (R163). -/
def parkSlots (partw : Word) : Nat := (parkBytes partw - 8192) / 576
def almanacBase : Nat := 0x3BE000

/-- The field rules of PARTW (R164). -/
def partwOk (w : Word) : Bool :=
  wbitsOf w 63 24 == 0 && wbitsOf w 15 8 != 0 && wbitsOf w 23 16 != 0 &&
    arenaBytes w + 16 * stackBytes w + parkBytes w ≤ poolSize

end Sys2Proof.Machine
end

