-- ==== Sys2Proof/Machine/Translate.lean ====
section
/-! DEFINITION. Two-stage translation (R206 to R211): tables, entries, TLB, walk cache, critical double reads. -/

namespace Sys2Proof.Machine

/-- A translation entry as read (R207): invalid, a table, or a leaf. -/
inductive Entry where
  | invalid
  | table (a : Nat)
  | leaf (v : Word)
  deriving DecidableEq, Repr

/-- R207 and R206: an entry with a nonzero reserved field, TYPE 11, a misaligned leaf address or a leaf at a level that
does not allow one is invalid; a table entry at level 4 has no table below it. -/
def readEntry (stage2 : Bool) (level : Nat) (v : Word) : Entry :=
  match wbitsOf v 1 0 with
  | 1 => if wbitsOf v 63 48 == 0 && wbitsOf v 11 2 == 0 && level < 4 then .table (wbitsOf v 47 12 * 4096) else .invalid
  | 2 =>
    if wbitsOf v 56 48 != 0 || (!stage2 && wbitsOf v 62 61 != 0) then .invalid
    else if level == 3 then (if wbitsOf v 24 2 == 0 then .leaf v else .invalid)
    else if level == 4 then (if stage2 || (wbitsOf v 15 2 == 0) then .leaf v else .invalid)
    else .invalid
  | _ => .invalid

/-- Low bit of the index field at a level (Table 2 of R206). -/
def levelShift (level : Nat) : Nat := 52 - 9 * level

/-- Index into the table of a level: level 0 has 32 entries in stage 1, level 1 has 32 in stage 2. -/
def levelIndex (stage2 : Bool) (level a : Nat) : Nat :=
  a / 2 ^ levelShift level % (if level == 0 || (stage2 && level == 1) then 32 else 512)

/-- Page base of a leaf. -/
def leafBase (v : Word) (level : Nat) : Nat := if level == 3 then wbitsOf v 47 25 * 2 ^ 25 else wbitsOf v 47 16 * 2 ^ 16

def leafSize (level : Nat) : Nat := if level == 3 then 2 ^ 25 else 2 ^ 16

/-- The outcome of a stage-2 walk: the leaf, its level, where the leaf stands, and the physical address. -/
structure S2 where
  v : Word
  level : Nat
  at_ : Nat
  pa : Nat
  deriving DecidableEq, Repr

/-- A walk-cache entry for the table entry of a level that serves an address. -/
def WalkEntry.serves (e : WalkEntry) (stage2 : Bool) (asid : BitVec 12) (part level a : Nat) : Bool :=
  e.stage2 == stage2 && (stage2 || e.asid == asid) && e.part == part && e.level == level && e.idx == a / 2 ^ levelShift level

/-- Invalidate such an entry if its parity is bad, and count the error (R209). -/
def checkParity (cl : Nat) (stage2 : Bool) (asid : BitVec 12) (part level a : Nat) : M Unit := do
  let bad : WalkEntry → Bool := fun e => e.serves stage2 asid part level a && e.parityBad
  if (← getCluster cl).walk.any bad then
    modCluster cl fun c => { c with walk := c.walk.filter fun e => !bad e }
    countCluster cl 0x4F

/-- Read a table entry through the walk cache of 64 entries (R209), which holds table entries and nothing that R207 treats
as TYPE 00; the oldest entry makes room (log 11). `iaBig` tells whether stage 2 maps the table's page in 32 MiB. -/
def walkRead (cl : Nat) (stage2 : Bool) (asid : BitVec 12) (part level a pa ia : Nat) (iaBig : Bool) : M Word := do
  checkParity cl stage2 asid part level a
  match (← getCluster cl).walk.find? fun e => e.serves stage2 asid part level a with
  | some e => return e.value
  | none =>
    let v ← peek64 (farKey pa)
    if (match readEntry stage2 level v with
      | .table _ => true
      | _ => false) then
      let e : WalkEntry := { stage2 := stage2, asid := asid, part := part, level := level, idx := a / 2 ^ levelShift level,
                             value := v, ia := BitVec.ofNat 48 ia, iaBig := iaBig }
      modCluster cl fun c =>
        let l := if c.walk.length ≥ 64 then c.walk.drop 1 else c.walk
        { c with walk := l ++ [e] }
    return v

/-- The stage-2 walk of an IA, from level 1 (R206, R208): TYPE 00 or a PA at or above 32·C fails. -/
def walk2 (cl part : Nat) (ia : Nat) : Nat → Nat → Nat → M (Option S2)
  | 0, _, _ => return none
  | fuel + 1, level, t => do
    let at_ := t + 8 * levelIndex true level ia
    let v ← walkRead cl true 0 part level ia at_ ia false
    match readEntry true level v with
    | .invalid => return none
    | .table a => walk2 cl part ia fuel (level + 1) a
    | .leaf w =>
      let pa := leafBase w level + ia % leafSize level
      if pa ≥ 32 * (← getS).capacity then return none
      return some { v := w, level := level, at_ := at_, pa := pa }

def stage2 (cl part : Nat) (ia : Nat) : M (Option S2) := do
  let root := (((← getS).part? part).getD {}).s2root
  walk2 cl part (ia % 2 ^ 48) 4 1 root

/-- How a translation ends (R208). -/
inductive Tr where
  | ok (e : TlbEntry)
  /-- Record kind 1. -/
  | stage1
  /-- Record kind 3, with the IA of the entry; or the table page is poisoned. -/
  | tableFail (ia : Nat)
  | tablePoison (ia : Nat)
  /-- Record kind 2. -/
  | stage2
  /-- The double read of a critical leaf has failed (R210): of one walk, and of a translation when the second redo of the
  walk has failed too. -/
  | critical (pa : Nat)
  deriving DecidableEq, Repr

/-- ST of a leaf. -/
def leafSt (v : Word) : Nat := wbitsOf v 62 61

/-- A leaf found in stage 1, with its level and the IA of the entry. -/
inductive W1 where
  | leaf (v : Word) (level at_ : Nat)
  | fail (t : Tr)
  deriving DecidableEq, Repr

/-- The double read of a leaf (R210): false when the two values differ, as soft errors still to come at its address make
them. A leaf with C = 0 is read once. -/
def criticalRead (v : Word) (pa : Nat) : M Bool := do
  let e := (← getS).errs
  let n := sget 0 pa e.critical
  if !v.getLsbD 63 || n == 0 then return true
  eff (.errs { e with critical := sset pa (n - 1) e.critical })
  return false

/-- The stage-1 walk (R208): each entry is read through stage 2, and the leaf of its table page must be readable and
present, and read twice when it is critical (R210). Of a leaf with both R = 0 and ST = 11, for which R208 gives two
outcomes, the poison is told (DESIGN CHOICE, log 55). -/
def walk1 (cl part : Nat) (asid : BitVec 12) (va : Nat) : Nat → Nat → Nat → M W1
  | 0, _, _ => return .fail .stage1
  | fuel + 1, level, t => do
    let ia := t + 8 * levelIndex false level va
    checkParity cl false asid part level va
    let cached := (← getCluster cl).walk.any fun e => e.serves false asid part level va
    let s2 ← if cached then pure none else stage2 cl part ia
    let bad ← match cached, s2 with
      | false, none => pure (some (Tr.tableFail ia))
      | _, some x => do
        if !(← criticalRead x.v x.at_) then pure (some (Tr.critical x.at_))
        else if leafSt x.v == 3 then pure (some (Tr.tablePoison ia))
        else if !x.v.getLsbD 58 || leafSt x.v ≤ 1 then pure (some (Tr.tableFail ia))
        else pure none
      | true, none => pure none
    match bad with
    | some b => return .fail b
    | none =>
      let pa := (s2.map (·.pa)).getD 0
      let v ← walkRead cl false asid part level va pa ia ((s2.map (·.level == 3)).getD false)
      match readEntry false level v with
      | .invalid => return .fail .stage1
      | .table a => walk1 cl part asid va fuel (level + 1) a
      | .leaf w => return .leaf w level pa

/-- The stage-1 walk alone, redone as R210 has it. -/
def walk1Again (cl part : Nat) (asid : BitVec 12) (s1root va : Nat) : Nat → M W1
  | 0 => walk1 cl part asid va 5 0 (s1root * 4096)
  | redos + 1 => do
    match ← walk1 cl part asid va 5 0 (s1root * 4096) with
    | .fail (.critical _) => walk1Again cl part asid s1root va redos
    | r => return r

/-- One full walk of a VA (R208). -/
def walkOnce (cl part : Nat) (asid : BitVec 12) (s1root va : Nat) : M Tr := do
  match ← walk1 cl part asid va 5 0 (s1root * 4096) with
  | .fail t => return t
  | .leaf v1 l1 at1 =>
    if !(← criticalRead v1 at1) then return .critical at1
    let ia := leafBase v1 l1 + va % leafSize l1
    match ← stage2 cl part ia with
    | none => return .stage2
    | some x =>
      if !(← criticalRead x.v x.at_) then return .critical x.at_
      let big := l1 == 3 && x.level == 3
      let size := if big then 2 ^ 25 else 2 ^ 16
      let and2 := fun i => v1.getLsbD i && x.v.getLsbD i
      return .ok {
        asid := asid, part := part, vpage := va / size, big := big, pa := x.pa / size * size,
        r := and2 58, w := and2 59, x := and2 60, at_ := and2 57, x1 := v1.getLsbD 60,
        st := BitVec.ofNat 2 (leafSt x.v), c := v1.getLsbD 63 || x.v.getLsbD 63,
        xslot := BitVec.ofNat 14 (if x.level == 4 then wbitsOf x.v 15 2 else 0), ia := BitVec.ofNat 48 ia,
        iaBig := x.level == 3 }

/-- A walk, redone as a whole at most twice when a double read differs (R210). -/
def walkAgain (cl part : Nat) (asid : BitVec 12) (s1root va : Nat) : Nat → M Tr
  | 0 => walkOnce cl part asid s1root va
  | redos + 1 => do
    match ← walkOnce cl part asid s1root va with
    | .critical _ => walkAgain cl part asid s1root va redos
    | t => return t

/-- The walk of a VA (R208, R210). -/
def walk (cl part : Nat) (asid : BitVec 12) (s1root va : Nat) : M Tr := walkAgain cl part asid s1root va 2

def TlbEntry.size (e : TlbEntry) : Nat := if e.big then 2 ^ 25 else 2 ^ 16

/-- Set of an entry: VA[22:16] or VA[31:25] (R209). -/
def TlbEntry.set (e : TlbEntry) : Nat := e.vpage % 128

def TlbEntry.covers (e : TlbEntry) (part : Nat) (asid : BitVec 12) (va : Nat) : Bool :=
  e.part == part && e.asid == asid && va / e.size == e.vpage

/-- Put an entry in, as most recently used; a full set of 8 loses its least recently used (R209). -/
def tlbInsert (e : TlbEntry) (l : List TlbEntry) : List TlbEntry :=
  let l' := if (l.filter fun x => x.set == e.set).length ≥ 8 then l.eraseP fun x => x.set == e.set else l
  l' ++ [e]

/-- Translate a VA through the TLB, walking on a miss (R208, R209). -/
def translate (cl part : Nat) (asid : BitVec 12) (s1root va : Nat) : M Tr := do
  let c ← getCluster cl
  let hit := c.tlb.find? fun e => e.covers part asid va
  let usable ← match hit with
    | some e =>
      let rest := c.tlb.filter fun x => !x.covers part asid va
      if e.parityBad then
        modCluster cl fun c => { c with tlb := rest }
        countCluster cl 0x4F
        pure none
      else
        modCluster cl fun c => { c with tlb := rest ++ [e] }
        pure (some e)
    | none => pure none
  match usable with
  | some e => return .ok e
  | none =>
    countCluster cl 0x4E
    let t ← walk cl part asid s1root va
    match t with
    | .ok e => modCluster cl fun c => { c with tlb := tlbInsert e (c.tlb.filter fun x => !x.covers part asid va) }
    | _ => pure ()
    return t

/-- The physical address an entry gives a VA. -/
def TlbEntry.phys (e : TlbEntry) (va : Nat) : Nat := e.pa + va % e.size

end Sys2Proof.Machine
end

