-- ==== Sys2Proof/Machine/Ops.lean ====
section
/-! DEFINITION. The shared operations: pool writes with their wakes (R165, R177), fault records and notices (R214 to R218,
R329, R390), aborting a block (R71), entering a task handler (R330), the return from it (R331), termination (R333), and
the end of a task's span (R368). -/

namespace Sys2Proof.Machine

/-! ### Pool words -/

/-- Accesses of up to 64 bytes that n bytes at an offset take at a port (R18, R161). -/
def portClocks (off n : Nat) : Nat := if n == 0 then 0 else (off + n - 1) / 64 - off / 64 + 1

/-- An action of n accesses holds a pool's port: its clocks follow those for which the port is engaged, and the bytes it
touches are nobody else's until it ends (R18, R179, R319; DEDUCED, log 53). -/
def holdPort (core : Nat) (touched : List (Nat × Nat)) (n : Nat) : M Unit := do
  let t ← now
  modCore core fun c =>
    let first := max (if c.portAt == some t then t + 1 else t) c.hold.till
    { c with hold := { till := first + n, touched := (if t < c.hold.till then c.hold.touched else []) ++ touched } }

/-- The accesses of one range hold the port. -/
def holdRange (core off n : Nat) : M Unit := holdPort core [(off, n)] (portClocks off n)

/-- The pool's port has served its access of this clock, or an action holds it (R18, R319). -/
def State.portBusy (s : State) (h : Home) : Bool :=
  match h with
  | .pool k => (s.core k).portAt == some s.clk.toNat || s.clk.toNat < (s.core k).hold.till
  | .far _ => false

/-- A mark or entry of a unit changes the state of one pool word: one access at its port (R179). -/
def markWord (core word : Nat) (v : BitVec 2) : M Unit := do
  eff (.sync (poolKey core (8 * word) / 8) v)
  holdRange core (8 * word) 8

/-- Whether a wake condition holds of a word (R177): 01 full, 10 empty, 11 zero (Table 12). -/
def condHolds (cond : BitVec 2) (full : Bool) (v : Word) : Bool :=
  match cond.toNat with
  | 1 => full
  | 2 => !full
  | 3 => v == 0
  | _ => false

/-- Evaluate the waiters of a word (R177): entries whose condition holds are removed in ascending index and their
wakes sent (R185); the mark goes when none remains. -/
def evalWaiters (core word : Nat) : M Unit := do
  let key := poolKey core (8 * word)
  let st := (← getS).syncOf (key / 8)
  if st.getLsbD 1 then
    let v ← peek64 key
    let c ← getCore core
    let hit : WakeEntry → Bool := fun e => e.off == word && condHolds e.cond (st.getLsbD 0) v
    let woken := (c.wakeTable.filter fun x => hit x.2).map fun x =>
      ({ core := x.2.core, ctx := x.2.ctx, gen := x.2.gen, pslot := x.2.pslot, value := v } : Wake)
    let rest := c.wakeTable.filter fun x => !hit x.2
    modCore core fun c => { c with wakeTable := rest }
    modNet fun n => { n with wakes := n.wakes ++ woken }
    if !(rest.any fun x => x.2.off == word) then eff (.sync (key / 8) (st &&& 1))

/-- Remove the wake-table entries a predicate picks at a core, clearing marks where none remains (R333, R337). -/
def dropWakes (core : Nat) (p : WakeEntry → Bool) : M Unit := do
  let c ← getCore core
  let gone := c.wakeTable.filter fun x => p x.2
  let rest := c.wakeTable.filter fun x => !p x.2
  if !gone.isEmpty then
    modCore core fun c => { c with wakeTable := rest }
    for x in gone do
      if !(rest.any fun y => y.2.off == x.2.off) then
        markWord core x.2.off ((← getS).syncOf (poolKey core (8 * x.2.off) / 8) &&& 1)

/-- Set the full flag of a word (R165, R176), its mark kept. -/
def setFull (core word : Nat) (b : Bool) : M Unit := do
  let w := poolKey core (8 * word) / 8
  let st := (← getS).syncOf w
  eff (.sync w ((st &&& 2) ||| (if b then 1 else 0)))

/-- The words that n bytes at an offset touch. -/
def wordsOf (off n : Nat) : List Nat :=
  if n == 0 then [] else (List.range ((off + n - 1) / 8 - off / 8 + 1)).map fun i => off / 8 + i

/-- Write bytes, leaving out those given as none. -/
def pokeSome (key : Nat) : List (Option Byte) → M Unit
  | [] => pure ()
  | b :: t => do
    match b with
    | some x => eff (.poke key x)
    | none => pure ()
    pokeSome (key + 1) t

/-- Bytes written at a pool, states preserved (R165). A word written whole loses its error marks. -/
def poolBytes (core off : Nat) (bs : List (Option Byte)) : M Unit := do
  pokeSome (poolKey core off) bs
  let e := (← getS).errs
  let whole := (wordsOf off bs.length).filter fun w =>
    off ≤ 8 * w && 8 * w + 8 ≤ off + bs.length && (bs.drop (8 * w - off) |>.take 8).all (·.isSome)
  let keys := whole.map fun w => poolKey core (8 * w)
  if e.double.any keys.contains || e.single.any keys.contains then
    eff (.errs { e with double := e.double.filter (!keys.contains ·), single := e.single.filter (!keys.contains ·) })

/-- A write performed at a pool (R165), then the waiters of every marked word (R177). -/
def poolWriteSome (core off : Nat) (bs : List (Option Byte)) : M Unit := do
  poolBytes core off bs
  for w in wordsOf off bs.length do evalWaiters core w

def poolWrite (core off : Nat) (bs : List Byte) : M Unit := poolWriteSome core off (bs.map some)

def poolWrite64 (core off : Nat) (v : Word) : M Unit := poolWrite core off (bytesOf 8 v.toNat)

/-- Value and full flag of a word in one perform, then its waiters (R176, R177, R229). -/
def syncWrite (core off : Nat) (v : Word) (full : Bool) : M Unit := do
  poolBytes core off ((bytesOf 8 v.toNat).map some)
  setFull core (off / 8) full
  evalWaiters core (off / 8)

/-- A read of a pool word by anyone: a single-bit error is corrected, written back and counted; the answer is the offset
of the first word that has a double-bit error (R166). -/
def eccRead (core off n : Nat) : M (Option Nat) := do
  let e := (← getS).errs
  let keys := (wordsOf off n).map fun w => poolKey core (8 * w)
  let single := e.single.filter keys.contains
  if !single.isEmpty then
    eff (.errs { e with single := e.single.filter (!keys.contains ·) })
    countCore core 0x18 0 single.length
  return ((wordsOf off n).find? fun w => e.double.contains (poolKey core (8 * w))).map (8 * ·)

/-- An UNCORR is consumed, or a SIGERR recurs, in a core or engine of a cluster (R340): containment of its umbra is
due. -/
def consume (cluster : Nat) : M Unit := do
  let us := (← getS).mgmt.umbrae
  match umbraOf us cluster with
  | none => pure ()
  | some u =>
    if u.stage == .ok then
      modMgmt fun m => { m with umbrae := m.umbrae.map fun x => if x.id == u.id then { x with stage := .consumed } else x }

/-- The word in a cluster's unit's hands is good: a single-bit error is corrected, and a double-bit error is consumed
(R166). -/
def deviceGood (cl core off n : Nat) : M Bool := do
  if (← eccRead core off n).isSome then
    consume cl
    return false
  return true

/-- The queue word of a record (Table 6 of R215). -/
def recWord (asid : Nat) (write : Bool) (idx kind cause : Nat) : Word :=
  BitVec.ofNat 64 (asid % 4096 * 2 ^ 20 + (if write then 2 ^ 19 else 0) + idx % 128 * 2 ^ 12 + kind % 16 * 2 ^ 8 + cause % 256)

/-! ### The home watch check (R371, R373) -/

/-- The partition of a core is told to raise its eclipse line (R334). -/
def requestRaise (part : Nat) (src : EclipseSource) (gtid : Word) : M Unit :=
  modPart part fun p => { p with raises := p.raises ++ [(src, gtid)] }

/-- The lowest byte of a range that WPADDR and WPMASK select. -/
def watchHit (wpaddr wpmask : Word) (lo size : Nat) : Option Nat :=
  ((List.range size).map (lo + ·)).find? fun a =>
    wpaddr.toNat ≤ a && a < wpaddr.toNat + 64 && wpmask.getLsbD (a - wpaddr.toNat)

/-- TYPE admits an access that reads or writes (R371). -/
def watchType (ctl : BitVec 24) (reads writes : Bool) : Bool :=
  (ctl.getLsbD 0 && reads) || (ctl.getLsbD 1 && writes)

/-- Who makes an access that a home checks (R373): agent id, GTID, ASID. -/
structure Agent where
  id : Word
  gtid : Word
  asid : Nat
  deriving DecidableEq, Repr

/-- A supervisor notice as a record (R329), with the ASID of the agent it tells of (Table 6 of R215), 0 where no agent is. -/
def noticeRec (cause idx asid : Nat) (gtid blk addr : Word) : PendRec :=
  { q := recWord asid false idx 8 cause, w0 := gtid, w1 := blk, w2 := addr }

/-- The home check of R373 after a perform of n bytes at an offset, by an agent with this id and GTID; `send` posts its
notice. -/
def homeCheck (send : Nat → PendRec → M Unit) (k off n : Nat) (reads writes : Bool) (who : Agent) : M Unit := do
  let s ← getS
  let c := s.core k
  let g := c.regs
  let isLoc := match classify g.wpaddr 1 with
    | .loc _ => true
    | _ => false
  if isLoc && g.wpctl.getLsbD 5 && watchType g.wpctl reads writes then
    match watchHit g.wpaddr g.wpmask off n with
    | none => pure ()
    | some b =>
      countCore k 0x1C 0
      match g.wpctl.toNat / 4 % 4 with
      | 0 => pure ()
      | 2 => requestRaise (s.partOf k) .watchpoint who.gtid
      | _ =>
        if !c.watched.contains who.id then
          modCore k fun c => { c with watched := c.watched ++ [who.id] }
          send (k / 8) (noticeRec 0x0E 0 who.asid who.gtid who.id (BitVec.ofNat 64 b))

/-- Agent id of a core's context (Table 9 of R373). -/
def coreAgent (s : State) (core ctx : Nat) (gen : BitVec 8) : Word :=
  BitVec.ofNat 64 (s.logical core * 2 ^ 49 + ctx * 2 ^ 44 + gen.toNat * 2 ^ 36)

/-! ### Fault records and notices -/

/-- Where slot h stands: its queue word and record (R214). -/
def recSlot (area : Nat × Nat) (h : Nat) : Nat × Nat := (area.2 + 8 * h, area.2 + 0x200 + 32 * h)

/-- Who posts a record: the unit of a cluster that the cores and engines share, which Table 9 of R373 gives no agent id. It
is told as context 0 of the cluster's first core, generation 0, with the GTID and ASID of the record (DESIGN CHOICE,
log 56). -/
def unitAgent (cl : Nat) (q w0 : Word) : M Agent := do
  return { id := coreAgent (← getS) (8 * cl) 0 0, gtid := w0, asid := wbitsOf q 31 20 }

/-- Post into slot h when it is free (R216): w0 to w2, w3 := 0 EMPTY (or FULL for kinds 7 and 8, R218, R329), then qh.
Answers the home and offset of w3. The states it tests are read under ECC (R166). The tests and the writes are accesses at
the pool's port, which they hold together (R18, log 53), and the home check examines the writes (R373). -/
def post (cl : Nat) (r : PendRec) (w3full : Bool) : M (Option (Nat × Nat)) := do
  match (← getS).pager cl with
  | none => return none
  | some area =>
    let h := (← getCluster cl).h
    let (q, rec) := recSlot area h.toNat
    let good ← deviceGood cl area.1 q 8
    let good := (← deviceGood cl area.1 (rec + 24) 8) && good
    let s ← getS
    let free := !(s.syncOf (poolKey area.1 q / 8)).getLsbD 0 && (s.syncOf (poolKey area.1 (rec + 24) / 8)).getLsbD 0
    if !free || !good then return none
    holdPort area.1 [(rec, 32), (q, 8)] 5
    poolWrite64 area.1 rec r.w0
    poolWrite64 area.1 (rec + 8) r.w1
    poolWrite64 area.1 (rec + 16) r.w2
    syncWrite area.1 (rec + 24) 0 w3full
    syncWrite area.1 q r.q true
    let who ← unitAgent cl r.q r.w0
    let later := fun (k : Nat) (x : PendRec) => modCluster k fun c => { c with pend := c.pend ++ [x] }
    homeCheck later area.1 rec 32 false true who
    homeCheck later area.1 q 8 false true who
    modCluster cl fun c => { c with h := c.h + 1, hints := c.hints.filter (·.1 != h.toNat) }
    countCluster cl 0x50
    return some (area.1, rec + 24)

/-- Kinds of record whose w3 is written FULL, so that no resolve is awaited (R218, R329). -/
def recDone (r : PendRec) : Bool := wbitsOf r.q 11 8 == 7 || wbitsOf r.q 11 8 == 8

/-- A record that waits for its slot when it is busy (R216); dropped where the cluster has no pager area (R390). -/
def postOrWait (cl : Nat) (r : PendRec) : M Unit := do
  if (← getS).pager cl |>.isSome then
    let c ← getCluster cl
    if c.pend.isEmpty then
      match ← post cl r (recDone r) with
      | some _ => pure ()
      | none => modCluster cl fun c => { c with pend := c.pend ++ [r] }
    else modCluster cl fun c => { c with pend := c.pend ++ [r] }

/-- The ASID a core works in: that of a notice which tells of a block. R329 and Table 6 of R215 do not say which ASID it
carries when an MTC of another context has changed the register since the block started: the model takes the register as
it then stands (DESIGN CHOICE, log 55). -/
def asidNow (core : Nat) : M Nat := do return asidOf (← getCore core).regs.asid

/-- A supervisor notice (R329). -/
def notice (cl cause idx asid : Nat) (gtid blk addr : Word) : M Unit := postOrWait cl (noticeRec cause idx asid gtid blk addr)

/-- The home check of R373, its notice posted at once. -/
def homeWatch (k off n : Nat) (reads writes : Bool) (who : Agent) : M Unit := homeCheck postOrWait k off n reads writes who

/-- A context as an agent (Table 9 of R373). -/
def ctxAgent (core ctx : Nat) : M Agent := do
  let s ← getS
  let c := s.ctx core ctx
  return { id := coreAgent s core ctx c.gen, gtid := c.task.gtid, asid := asidOf (s.core core).regs.asid }

/-- Tell the supervisor that a task could not park: merged to one notice in 65,536 clocks for a core (R186). The layout
of R329 has no field for the core, which the pager area of the notice gives up to its cluster only; the model adds none
(DESIGN CHOICE, log 52). -/
def noticeParkfull (core : Nat) (gtid blk addr : Word) (idx : Nat) : M Unit := do
  let c ← getCore core
  let t ← now
  let due := match c.parkfull with
    | none => true
    | some p => p + 65536 ≤ t
  countCore core 0x16 0
  if due then
    modCore core fun c => { c with parkfull := some t }
    notice (core / 8) 0x0D idx (asidOf c.regs.asid) gtid blk addr

/-- A device write into a pool, which no LPU checks: its accesses hold the port (R18; DEDUCED, log 53), and the home check
examines it (R373). -/
def deviceWrite (k off : Nat) (bs : List Byte) (who : Agent) : M Unit := do
  poolWrite k off bs
  holdRange k off bs.length
  homeWatch k off bs.length false true who

/-- A record that a unit of a core writes into the core's own pool for a context's task. -/
def unitWrite (core ctx : Nat) (gtid : Word) (off : Nat) (bs : List Byte) : M Unit := do
  deviceWrite core off bs { (← ctxAgent core ctx) with gtid := gtid }

/-- Bytes the NI or another device unit of a cluster reads from a pool for its own use: a single-bit error is corrected,
and a double-bit error is consumed, so that containment follows (R166, R340). Its accesses hold the pool's port (R18). -/
def deviceRead (cl core off n : Nat) : M (List Byte) := do
  let _ ← deviceGood cl core off n
  holdRange core off n
  peek (poolKey core off) n

/-- Bytes that a core or another unit of a cluster reads from a pool beside its forms: the home check examines them
(R373). -/
def agentRead (cl k off n : Nat) (who : Agent) : M (List Byte) := do
  let bs ← deviceRead cl k off n
  homeWatch k off n true false who
  return bs

/-- Bytes that the unit which a cluster's cores and engines share reads for itself. -/
def unitRead (cl k off n : Nat) : M (List Byte) := do agentRead cl k off n (← unitAgent cl 0 0)

/-! ### The registers as records (Table 12 of R182, Table 2 of R330, Table 9 of R91) -/

/-- v tags in [31:0], open-stream mask in [35:32], FMODE in [38:36]. -/
def packFlags (r : Regs) : Nat :=
  (List.range 8).foldl (fun a n => a + (vget {} r.v n).tag.toNat * 2 ^ (4 * n)) 0 +
    (List.range 4).foldl (fun a n => a + (if (vget {} r.streams n).isOpen then 2 ^ (32 + n) else 0)) 0 +
    r.fmode.toNat * 2 ^ 36

/-- g0 to g15, v0 to v7 and the stream keys: bytes 128 to 543 of a park record or save area. -/
def regBytes (r : Regs) : List Byte :=
  (r.g.toList.flatMap fun w => bytesOf 8 w.toNat) ++ (r.v.toList.flatMap fun v => bytesOf 32 v.bits.toNat) ++
    (r.streams.toList.flatMap fun k => bytesOf 8 k.key.toNat)

/-- The trap save area (Table 2 of R330), 576 bytes. -/
def saveImage (r : Regs) (gtid resume : Word) : List Byte :=
  bytesOf 8 resume.toNat ++ bytesOf 8 gtid.toNat ++ bytesOf 8 r.xsig.toNat ++ bytesOf 8 (packFlags r) ++
    bytesOf 8 r.taddr.toNat ++ bytesOf 8 (r.tcause.toNat + r.tidx.toNat * 256) ++ bytesOf 8 r.tblk.toNat ++
    bytesOf 72 0 ++ regBytes r ++ bytesOf 32 0

/-- A little-endian number inside a record. -/
def field (bs : List Byte) (at_ n : Nat) : Nat := ofBytes ((bs.drop at_).take n)

def fieldWord (bs : List Byte) (at_ : Nat) : Word := BitVec.ofNat 64 (field bs at_ 8)

/-- The g, v and stream registers, tags, XSIG and FMODE a record of the layouts above holds. -/
def restoreRegs (r : Regs) (bs : List Byte) : Regs :=
  let fl := field bs 24 8
  { r with
    g := Vector.ofFn fun i => fieldWord bs (128 + 8 * i.val)
    v := Vector.ofFn fun i => { bits := BitVec.ofNat 256 (field bs (256 + 32 * i.val) 32),
                                tag := BitVec.ofNat 4 (fl / 2 ^ (4 * i.val)) }
    streams := Vector.ofFn fun i => { isOpen := fl.testBit (32 + i.val), key := fieldWord bs (512 + 8 * i.val) }
    xsig := fieldWord bs 16
    fmode := BitVec.ofNat 3 (fl / 2 ^ 36) }

/-! ### Tasks -/

/-- The context keeps its slots busy for n slots (R64). -/
def useSlots (core ctx n : Nat) : M Unit := do
  let t ← now
  modCtx core ctx fun c => { c with busy := t + 16 * n }

/-- The almanac entry of a span that ends on a core (R368): 1 TEND, 2 terminated, 3 migrated out. -/
def almanacOf (core ctx : Nat) (task : Task) (end_ : Nat) : M Unit := do
  let k ← getCore core
  let t := (← now) % 2 ^ 48
  let w1 := task.enq.toNat + task.fails.toNat * 2 ^ 48
  let w2 := task.deq.toNat + ctx * 2 ^ 48 + end_ * 2 ^ 52
  let w3 := t + task.parks.toNat * 2 ^ 48
  let at_ := almanacBase + 32 * k.regs.almidx.toNat
  unitWrite core ctx task.gtid at_ (bytesOf 8 task.gtid.toNat ++ bytesOf 8 w1 ++ bytesOf 8 w2 ++ bytesOf 8 w3)
  modCore core fun k => { k with regs := { k.regs with almidx := k.regs.almidx + 1,
                                                       almwrap := k.regs.almwrap || k.regs.almidx == 255 } }

/-- The almanac entry of the task on a context. -/
def almanac (core ctx end_ : Nat) : M Unit := do almanacOf core ctx (← getCtx core ctx).task end_

/-- The context becomes FREE and its generation increments (R80, R92, R93). -/
def freeCtx (core ctx : Nat) : M Unit :=
  modCtx core ctx fun c => { status := .free, gen := c.gen + 1, regs := c.regs, steal := c.steal, lastSlot := c.lastSlot,
                             busy := c.busy, pfills := c.pfills }

/-- One task of a launch less (R80, R333); `bad` marks the launch terminated (R350). -/
def endTask (launch : Nat) (bad : Bool) : M Unit :=
  modLaunch launch fun l => { l with live := l.live - 1, terminated := l.terminated || bad }

/-- Accesses of a block that has been aborted: buffered, unsent and answered ones go, sent ones wait for their replies
(R71). -/
def dropBlock (c : Ctx) : List Access :=
  c.accs.filterMap fun a =>
    if a.blk == c.blk && !c.win.insts.isEmpty then
      if a.got.isSome then none
      else match a.st with
      | .window => none
      | .drain => some a
      | .pooled => (match a.op with
        | .store _ => some a
        | _ => none)
      | _ => (match a.op with
        | .store _ => some a
        | _ => some { a with dead := true })
    else some a

/-- A park slot taken for an attempt that goes unsent is free again (R181). -/
def freeParks (core ctx : Nat) : M Unit := do
  let c ← getCtx core ctx
  let ps := c.accs.filterMap fun a => if (dropBlock { c with accs := [a] }).isEmpty then a.park.map (·.2) else none
  if !ps.isEmpty then modCore core fun k => { k with pslots := k.pslots.filter fun x => !ps.contains x.1 }

/-- Loads of an aborted block are still out (R71). -/
def Ctx.loadsOut (c : Ctx) : Bool := c.accs.any (·.dead)

/-- TSAVE passes the check of R330. -/
def tsaveOk (w : Word) : Bool :=
  w != 0 && w.toNat / 2 ^ 22 == 0 && w.toNat % 64 == 0 && w.toNat + 576 ≤ poolSize

/-- Stores of the context that are not yet performed. -/
def Ctx.storesOut (c : Ctx) : Bool := c.accs.any fun a => match a.op with
  | .store _ => !a.dead
  | _ => false

/-- Begin the end of a task (R333): it drains, then TASK_TERMINATE frees the context. -/
def kill (core ctx : Nat) : M Unit := do
  freeParks core ctx
  modCtx core ctx fun c => { c with phase := .killing, accs := dropBlock c, win := {}, wait := none, status := .active }

/-- trap_entry of R330, for a block that has aborted with no load outstanding. -/
def trapEntry (core ctx : Nat) (cause : BitVec 8) (addr blk : Word) (idx : BitVec 7) (resume : Word) : M Unit := do
  let c ← getCtx core ctx
  if c.regs.hf || c.regs.tvec == 0 || !tsaveOk c.regs.tsave then
    kill core ctx
    notice (core / 8) cause.toNat (if c.regs.hf then 127 else idx.toNat) (← asidNow core) c.task.gtid blk addr
  else
    let r := { c.regs with tcause := cause, taddr := addr, tblk := blk, tidx := idx }
    let img := saveImage r c.task.gtid resume
    let t ← now
    let acc : Access := { blk := c.blk, rank := 3, lsid := 64, op := .store (img.map some), ea := r.tsave, size := 576,
                          home := .pool core, addr := poolKey core r.tsave.toNat, st := .drain }
    let wait := c.storesOut
    if !wait then unitWrite core ctx c.task.gtid r.tsave.toNat img
    modCtx core ctx fun c =>
      { c with regs := { r with hf := true }, phase := .fetch r.tvec (t + 16 * 8), busy := t + 16 * 8, win := {},
               task := { c.task with sigHeld := c.task.sigRetry, sigRetry := none },
               accs := if wait then c.accs ++ [acc] else c.accs }

/-- The resume address of Table 2: where the lowest-indexed BRA or CALL of exit number 0 goes, else the block that
follows in memory. -/
def resumeOf (blk : Word) (header : Code) (words : List Code) : Word :=
  let dest := words.findSome? fun w => match decode w with
    | some (.bra f) | some (.call f) => if f.exit == 0 then some (ea blk (zImm f.z * 4)) else none
    | _ => none
  dest.getD (ea blk (12 * (header.len + 2)))

def Window.resume (w : Window) : Word := resumeOf w.addr w.header (w.insts.map (·.word))

/-- The code word at a key. -/
def codeAt (m : List Host.Cell) (key : Nat) : Code := BitVec.ofNat 96 (ofBytes (Mem.read m key 12))

/-- Enter the handler of a task whose block is not in its window: after a resolve (R217) or WAITLIM (R187). The resume
address is the one Table 2 gave the block when it aborted. -/
def enterTrap (core ctx : Nat) (cause : BitVec 8) (addr blk : Word) (idx : BitVec 7) : M Unit := do
  let c ← getCtx core ctx
  countCore core 0x0B ctx
  trapEntry core ctx cause addr blk idx (if idx.toNat ≥ 64 then blk else c.task.resume)

/-- What follows an abort once no load of the block is outstanding (R71); entering a handler and ending a task are
steps of their own when loads had to be waited for. -/
def settle (core ctx : Nat) : M Unit := do
  let c ← getCtx core ctx
  if !c.loadsOut then
    match c.phase with
    | .after (.fetch a t) => modCtx core ctx fun c => { c with phase := .fetch a t }
    | .after (.postRetry _ _) | .after .resolve => pure ()
    | .after (.park p) => modCtx core ctx fun c => { c with phase := .parkDrain p }
    | .after (.halt a) => modCtx core ctx fun c => { c with status := .halted, phase := .fetch a 0 }
    | .after (.migrate a t) => modCtx core ctx fun c => { c with phase := .migDrain a t }
    | _ => pure ()

/-- An aborted execution leaves no trace (R71): what it was to leave out is left out when the block executes again (R90,
R332, R370, R372). -/
def Ctx.skipBack (c : Ctx) : Skips :=
  let w := c.win.skip
  let t := c.task.skip
  if w == {} then t
  else if t.blk == w.blk then
    { w with mig := w.mig || t.mig, bkpt := w.bkpt || t.bkpt, brk := w.brk || t.brk, watch := w.watch || t.watch }
  else w

/-- The irrevocable instruction has issued, so that the signature comparison has been passed (R41). -/
def Window.sigPassed (w : Window) : Bool := (w.commitPoint.bind fun k => (w.insts[k]?).map (·.issued)).getD false

/-- Abort the executing block (R71) and go on as `k` says. A re-execution under R41 that has passed the comparison leaves no
mark of the mismatch before it. -/
def abort (core ctx : Nat) (k : After) : M Unit := do
  freeParks core ctx
  let c ← getCtx core ctx
  let c' := { c with accs := dropBlock c, win := {}, wait := none, phase := .after k,
                     task := { c.task with resume := c.win.resume, skip := c.skipBack
                                           sigRetry := if c.win.sigPassed then none else c.task.sigRetry } }
  setCtx core ctx c'
  countCore core 0x09 ctx
  if !c'.loadsOut then
    match k with
    | .trap cause addr blk idx resume => trapEntry core ctx cause addr blk idx resume
    | .terminate => kill core ctx
    | _ => settle core ctx

/-- fault(CAUSE) for a cause that goes to the task's handler (R327): the block aborts, and the handler is entered. -/
def raiseTrap (core ctx : Nat) (cause : BitVec 8) (addr : Word) (idx : Nat) : M Unit := do
  let c ← getCtx core ctx
  countCore core 0x0B ctx
  abort core ctx (.trap cause addr c.win.addr (BitVec.ofNat 7 idx) c.win.resume)

/-- The fault of the instruction being executed. -/
def raise (cause : BitVec 8) (addr : Word) : M Unit := do
  let cur := (← getS).cur
  raiseTrap cur.core cur.ctx cause addr cur.idx

/-- BADEXIT (R70): the block aborts, the task is terminated, the supervisor told. -/
def badExit (core ctx : Nat) : M Unit := do
  let c ← getCtx core ctx
  notice (core / 8) 0x0B 0 (← asidNow core) c.task.gtid c.win.addr 0
  countCore core 0x0B ctx
  abort core ctx .terminate

/-- Cause and address of what stops a context without a handler (Table 1 of R327): debugger and containment causes. -/
def tell (core ctx : Nat) (cause : BitVec 8) (addr : Word) : M Unit :=
  modCtx core ctx fun c => { c with haltCause := cause, haltAddr := addr }

/-- UNCORR in an executing block (R49, R166, R210): the block aborts with nothing performed; the task waits for the
containment that follows. `addr` is the address of the word (Table 1 of R327). -/
def raiseUncorr (core ctx : Nat) (addr : Word) : M Unit := do
  let c ← getCtx core ctx
  countCore core 0x0B ctx
  tell core ctx 0x10 addr
  abort core ctx (.halt c.win.addr)
  consume (core / 8)

/-- A first signature mismatch aborts the block, drops its code-cache lines and executes it again from a fresh fetch; a
second leads to containment (R41, R119). `tadr` is SIGCHK's operand, which TADDR then holds; the signature checker's own
mismatch leaves TADDR as it is and tells 0 (Table 1 of R327). That a SIGCHK mismatch drops the lines too, and that the two
kinds share the one retry of their block, is the model's choice (DESIGN CHOICE, log 52); so is that each of the two counts under
event source 0x17 and neither under 0x0B (DESIGN CHOICE, log 56). -/
def sigMismatch (core ctx : Nat) (tadr : Option Word) : M Unit := do
  let c ← getCtx core ctx
  countCore core 0x17 ctx
  let p := (← getS).partOf core
  match ← translate (core / 8) p (BitVec.ofNat 12 (asidOf c.win.snap.core.asid)) (s1Of c.win.snap.core.asid)
      (c.win.addr.toNat % 2 ^ 57) with
  | .ok e =>
    let lo := e.phys (c.win.addr.toNat % 2 ^ 57)
    let hi := lo + 12 * (c.win.header.len + 2)
    modCluster (core / 8) fun k => { k with code := k.code.filter fun l => l.line * 64 + 64 ≤ lo || hi ≤ l.line * 64 }
  | _ => pure ()
  modCtx core ctx fun c => { c with regs := { c.regs with taddr := tadr.getD c.regs.taddr } }
  if c.task.sigRetry == some c.win.addr then
    tell core ctx 0x0C (tadr.getD 0)
    abort core ctx (.halt c.win.addr)
    consume (core / 8)
  else
    abort core ctx (.fetch c.win.addr 0)
    modCtx core ctx fun x => { x with task := { x.task with sigRetry := some c.win.addr } }

/-- The messages of a context that stand in its NI send queue: sent, and not yet taken by the mesh (R66). -/
def State.niQueued (s : State) (core ctx : Nat) : Nat :=
  (s.net.channels.filter fun x => x.1 == .ni core && x.2.2.core == core && x.2.2.ctx == ctx && x.2.2.queued).length

/-- The NI send queue of a context holds 4 messages (R66): its slots are lost. -/
def State.niFull (s : State) (core ctx : Nat) : Bool := 4 ≤ s.niQueued core ctx

/-! ### Firing in M -/

/-- Fire the current form: `go` when its operands are there and none is null, null tokens otherwise (R34), after `lat`
slots (R67). A null irrevocable form still marks the commit point; a null memory-class form resolves. -/
def fireM (gm : Guard) (ts : List Target) (slots : List Slot) (irr : Bool) (go : Inst → Window → M Unit)
    (s : State) (lat : Nat := 1) : Host.Outcome State Fault Refusal :=
  let c := s.curCtx
  match c.win.insts[s.cur.idx]? with
  | none => act s []
  | some i =>
    match i.fires gm slots with
    | .notReady => act s []
    | .null =>
      act s [.ctx s.cur.core s.cur.ctx (c.onWin fun w =>
        { (w.issue s.cur.idx).emit s.cur.idx ts .null (dueAt s lat) with committed := w.committed || irr })]
    | .go => runM (do
        modCtx s.cur.core s.cur.ctx fun c => c.onWin fun w => w.issue s.cur.idx
        go i c.win) s

/-- Emit the result of an instruction of a context's block. -/
def emitAt (core ctx idx : Nat) (tok : Token) (lat : Nat) : M Unit := do
  let t ← now
  modCtx core ctx fun c => c.onWin fun w =>
    match w.insts[idx]? with
    | some i => w.emit idx (((i.word.info).map i.word.outs).getD []) tok (t + 16 * lat)
    | none => w

/-- Emit a token that is due at a clock of its own. -/
def emitDue (core ctx idx : Nat) (tok : Token) (due : Nat) : M Unit :=
  modCtx core ctx fun c => c.onWin fun w =>
    match w.insts[idx]? with
    | some i => w.emit idx (((i.word.info).map i.word.outs).getD []) tok due
    | none => w

/-- Emit the result of the current form. -/
def emitCur (ts : List Target) (tok : Token) (lat : Nat) : M Unit := do
  let cur := (← getS).cur
  let t ← now
  modCtx cur.core cur.ctx fun c => c.onWin fun w => w.emit cur.idx ts tok (t + 16 * lat)

/-- The commit point has been performed (R72). -/
def markCommitted : M Unit := do
  let cur := (← getS).cur
  modCtx cur.core cur.ctx fun c => c.onWin fun w => { w with committed := true }

end Sys2Proof.Machine
end

