-- ==== Sys2Proof/Machine/Queue.lean ====
section
/-! DEFINITION. The slots of the engine job queue (R227, R232): which is free, to whom a freed slot goes, and the end of a
job without a completion word (R340). -/

namespace Sys2Proof.Machine

def State.slotOf (s : State) (cl slot : Nat) : QSlot := sget {} slot (s.cluster cl).slots

def State.jobOf (s : State) (cl slot : Nat) : Option Job := (s.slotOf cl slot).job

def modSlot (cl slot : Nat) (f : QSlot → QSlot) : M Unit :=
  modCluster cl fun c => { c with slots := sset slot (f (sget {} slot c.slots)) c.slots }

def modJob (cl slot : Nat) (f : Job → Job) : M Unit := modSlot cl slot fun q => { q with job := q.job.map f }

/-- Slots free for a GTID: no job, and no reservation but its own. -/
def slotFree (gtid : Word) (q : QSlot) : Bool := q.job.isNone && (match q.res with
  | some (g, _) => g == gtid
  | none => true)

def freeSlot (c : Cluster) (gtid : Word) : Option Nat :=
  (List.range 64).find? fun i => slotFree gtid (sget {} i c.slots)

/-- The cyclic order that starts after i. -/
def after (i n : Nat) : List Nat := (List.range n).map fun d => (i + 1 + d) % n

/-- The next waiter: cores in turn after the last accepted, contexts of a core in turn after the last served (R232). -/
def nextWaiter (c : Cluster) : Option QWaiter :=
  (after c.lastAccept 8).findSome? fun k =>
    (after (vget 15 c.lastServed k) 16).findSome? fun x => c.waiters.find? fun w => w.core % 8 == k && w.ctx == x

/-- A freed slot goes to the next waiter, which is woken (R232, R185). -/
def grantSlot (cl slot : Nat) : M Unit := do
  let c ← getCluster cl
  match nextWaiter c with
  | none => modSlot cl slot fun q => { q with res := none }
  | some w =>
    let t ← now
    modCluster cl fun c => { c with
      waiters := c.waiters.erase w
      lastServed := vset c.lastServed (w.core % 8) w.ctx
      slots := sset slot { sget {} slot c.slots with res := some (w.gtid, t) } c.slots }
    modNet fun n => { n with
      wakes := n.wakes ++ [{ core := w.core, ctx := w.ctx, gen := w.gen, pslot := w.pslot, value := 0 }] }

/-- The slot of a job that has ended frees, and goes to the next waiter (R229, R232, R233). -/
def freeJob (cl slot engine : Nat) : M Unit := do
  modCluster cl fun c => { c with
    order := c.order.filter (· != slot)
    current := if vget none c.current engine == some slot then vset c.current engine none else c.current
    slots := sset slot { sget {} slot c.slots with job := none, res := none } c.slots }
  grantSlot cl slot

/-! ### Completion words (R229) -/

/-- A completion word (Table 2 of R229). -/
def doneWord (result status detail : Nat) : Word :=
  BitVec.ofNat 64 (result % 2 ^ 32 * 2 ^ 32 + status % 256 * 2 ^ 24 + detail % 2 ^ 24)

/-- The engine leaves a job. -/
def leaveJob (cl slot engine : Nat) (st : JobState) : M Unit := do
  modJob cl slot fun j => { j with st := st, stopping := none }
  modCluster cl fun c =>
    { c with current := if vget none c.current engine == some slot then vset c.current engine none else c.current }

/-- The engine leaves a job that stops for the eclipse line or a pre-emption; what it has read ahead is read anew when it goes
on (R233, R289). -/
def leaveStopped (cl slot engine : Nat) : M Unit := do
  let t ← now
  modJob cl slot fun j => { j with stop := t, early := [], temp := [], sent := [] }
  leaveJob cl slot engine .stopped

/-- Bytes a copy command names (R244). -/
def copySize (j : Job) : Nat :=
  if j.form.2 == 3 then field j.desc 24 4
  else if j.form.2 == 5 then field j.desc 24 4 * field j.desc 28 4
  else 65536

/-- A record of the copy trace (R244). -/
def copyTrace (cl slot kind : Nat) (j : Job) : M Unit := do
  let s ← getS
  let w0 := kind * 2 ^ 62 + slot * 2 ^ 56 + (s.slotOf cl slot).gen.toNat * 2 ^ 48 + s.clk.toNat % 2 ^ 48
  let r : List Word := [BitVec.ofNat 64 w0, j.gtid, fieldWord j.desc 8, fieldWord j.desc 16, BitVec.ofNat 64 (copySize j),
    fieldWord j.desc 0]
  modCluster cl fun c =>
    { c with trace := (if c.trace.length ≥ 192 then c.trace.drop 1 else c.trace) ++ [r] }

/-- The completion word of a job has been written, in this perform: a job that has ended frees its slot, one suspended for
software keeps it (R229, R233). A status of 0x06 is a consumed error (R340). -/
def wordWritten (cl slot status : Nat) (ends : Bool) : M Unit := do
  match (← getS).jobOf cl slot with
  | none => pure ()
  | some j =>
    modSlot cl slot fun q => { q with status := BitVec.ofNat 8 status }
    modJob cl slot fun j => { j with out := j.out - 1 }
    if ends then
      if j.engine == 2 then copyTrace cl slot 3 j
      freeJob cl slot j.engine
      if status == 0x06 then consume cl
    else leaveJob cl slot j.engine (.suspended (BitVec.ofNat 8 status))

/-- A job that a NACK of a fenced umbra meets ends with no completion write, as the jobs of the umbra's own engines do:
R340 tells only what a core does with such a NACK (DESIGN CHOICE, log 46). -/
def loseJob (cl slot : Nat) : M Unit := do
  match (← getS).jobOf cl slot with
  | some j => freeJob cl slot j.engine
  | none => pure ()

end Sys2Proof.Machine
end

