-- ==== Sys2Proof/Machine/Vector.lean ====
section
/-! DEFINITION. Lanes and the vector forms VARITH and VDATA (R142 to R156). -/

namespace Sys2Proof.Machine

/-! ### Lanes (R142, R144) -/

def laneW (tag : BitVec 4) : Nat := tagBits tag.toNat
def laneN (tag : BitVec 4) : Nat := 256 / laneW tag

def lane (b : VBits) (w i : Nat) : Nat := b.toNat / 2 ^ (w * i) % 2 ^ w

/-- A vector from lane patterns, lane 0 first. -/
def ofLanes (w : Nat) (l : List Nat) : VBits :=
  BitVec.ofNat 256 (l.foldr (fun x a => x % 2 ^ w + 2 ^ w * a) 0)

/-- A mask from a predicate on lanes 0 to n − 1. -/
def maskOf (n : Nat) (p : Nat → Bool) : BitVec 32 :=
  BitVec.ofNat 32 ((List.range n).foldl (fun a i => a + (if p i then 2 ^ i else 0)) 0)

/-- Every lane of the token is null (R145). -/
def allNull (t : Token) : Bool := (List.range (laneN t.tag)).all fun i => t.nulls.getLsbD i

/-- Lane i of an operand is null; a token null in every lane is null in any lane (R123). -/
def nullAt (t : Token) (i : Nat) : Bool := allNull t || t.nulls.getLsbD i

/-- Nullness by byte: whether byte j of a token's bits is null (R144). -/
def nullByte (t : Token) (j : Nat) : Bool := t.nulls.getLsbD (8 * j / laneW t.tag)

/-- The mask of a result of another tag whose byte j is byte `src j` of the operand (R144). -/
def nullsByByte (t : Token) (tag : BitVec 4) (src : Nat → Nat) : BitVec 32 :=
  let n := laneW tag / 8
  maskOf (laneN tag) fun i => (List.range n).any fun j => nullByte t (src (n * i + j))

/-- A vector token from lane values; `none` is a null lane. -/
def vecTok (tag : BitVec 4) (f : Nat → Option Nat) : Token :=
  let l := (List.range (laneN tag)).map f
  .vector (ofLanes (laneW tag) (l.map (·.getD 0))) tag (maskOf (laneN tag) fun i => (f i).isNone)

/-! ### Firing a vector form -/

/-- A form whose value fails with FMTX (cause 0x05, TADDR 0) or is a token (R123). -/
def vecForm (f : FmtA) (slots : List Slot) (lat : Nat) (v : Inst → Snap → Option Token) (s : State) :
    Host.Outcome State Fault Refusal :=
  fireM f.gm (targetList f.t) slots false (fun i w =>
    match v i w.snap with
    | some t => emitCur (targetList f.t) t lat
    | none => raise 0x05 0) s lat

/-- The tag check against XF (R123). -/
def tagIs (tag : BitVec 4) (t : Token) : Bool := allNull t || t.tag == tag

def notNone (t : Token) : Bool := allNull t || t.tag != 0

/-- Lane arithmetic of Table 3. -/
inductive LaneOp where
  | add | sub | mul | fma | min | max | abs | neg | div | sqrt
  deriving DecidableEq, Repr

/-- One float lane (R147); patterns in, pattern out. -/
def floatLane (f : FloatFmt) (m : Rmode) (op : LaneOp) (a b c : Nat) : Nat :=
  let x := f.decode a
  let y := f.decode b
  match op with
  | .add => f.ofVal m false (fvAdd m 0 x y)
  | .sub => f.ofVal m false (fvSub m 0 x y)
  | .mul => f.ofVal m false (fvMul 0 x y)
  | .fma => f.ofVal m false (fvFma m 0 x y (f.decode c))
  | .min => f.minMax false a b
  | .max => f.minMax true a b
  | .abs => a % 2 ^ (f.eb + f.fb)
  | .neg => a ^^^ 2 ^ (f.eb + f.fb)
  | .div => f.div m false x y
  | .sqrt => f.sqrt m false x

/-- One integer lane, exact (R147). -/
def intLane (op : LaneOp) (a b c : Int) : Int :=
  match op with
  | .add => a + b
  | .sub => a - b
  | .mul => a * b
  | .fma => a * b + c
  | .min => min a b
  | .max => max a b
  | .abs => a.natAbs
  | .neg => -a
  | .div | .sqrt => 0

/-- round_m of v / 2^16 (R147). -/
def roundFx (m : Rmode) (v : Int) : Int := roundInt m (v < 0) v.natAbs (-16) 0

/-- One FX32 lane before the clamp. -/
def fxLane (m : Rmode) (op : LaneOp) (a b c : Int) : Int :=
  match op with
  | .mul => roundFx m (a * b)
  | .fma => roundFx m (a * b + c * 2 ^ 16)
  | _ => intLane op a b c

/-- One lane of any accepted tag (R147). -/
def laneOp (tag : Nat) (m : Rmode) (op : LaneOp) (a b c : Nat) : Nat :=
  match floatOf tag with
  | some f => floatLane f m op a b c
  | none =>
    let w := tagBits tag
    if tag == 11 then truncNat (clampW 32 (fxLane m op (sextNat a 32) (sextNat b 32) (sextNat c 32))) 32
    else truncNat (intLane op (sextNat a w) (sextNat b w) (sextNat c w)) w

/-- The lane-wise forms VADD to VSQRT (R145, R147). -/
def lanewise (f : FmtA) (op : LaneOp) (slots : List Slot) (lat : Nat) (s : State) : Host.Outcome State Fault Refusal :=
  vecForm f slots lat (fun i sn =>
    if slots.all fun x => tagIs f.xf (i.tok x) then
      let w := laneW f.xf
      let at_ := fun x k => lane (i.tok x).vbits w k
      some (vecTok f.xf fun k =>
        if slots.any fun x => nullAt (i.tok x) k then none
        else some (laneOp f.xf.toNat (rmode 0 sn.regs.fmode) op (at_ .a k) (at_ .b k) (at_ .c k)))
    else none) s

/-- VADD (R147). -/
def execVadd (f : FmtA) (s : State) : Host.Outcome State Fault Refusal := lanewise f .add [.a, .b] 1 s
/-- VSUB (R147). -/
def execVsub (f : FmtA) (s : State) : Host.Outcome State Fault Refusal := lanewise f .sub [.a, .b] 1 s
/-- VMUL (R147). -/
def execVmul (f : FmtA) (s : State) : Host.Outcome State Fault Refusal := lanewise f .mul [.a, .b] 1 s
/-- VFMA (R147). -/
def execVfma (f : FmtA) (s : State) : Host.Outcome State Fault Refusal := lanewise f .fma [.a, .b, .c] 1 s
/-- VMIN (R147). -/
def execVmin (f : FmtA) (s : State) : Host.Outcome State Fault Refusal := lanewise f .min [.a, .b] 1 s
/-- VMAX (R147). -/
def execVmax (f : FmtA) (s : State) : Host.Outcome State Fault Refusal := lanewise f .max [.a, .b] 1 s
/-- VABS (R147). -/
def execVabs (f : FmtA) (s : State) : Host.Outcome State Fault Refusal := lanewise f .abs [.a] 1 s
/-- VNEG (R147). -/
def execVneg (f : FmtA) (s : State) : Host.Outcome State Fault Refusal := lanewise f .neg [.a] 1 s
/-- VDIV (R147). -/
def execVdiv (f : FmtA) (s : State) : Host.Outcome State Fault Refusal := lanewise f .div [.a, .b] 3 s
/-- VSQRT (R147). -/
def execVsqrt (f : FmtA) (s : State) : Host.Outcome State Fault Refusal := lanewise f .sqrt [.a] 3 s

/-- A VCMP condition on two lanes that are not null (Table 4 of R148). A reserved condition is false (DESIGN CHOICE, log 56). -/
def laneCmp (cond tag a b : Nat) : Bool :=
  let x := decodeTag tag a
  let y := decodeTag tag b
  let isF := (floatOf tag).isSome
  let nan := x.isNan || y.isNan
  match cond with
  | 0 => fvEq x y
  | 1 => !fvEq x y
  | 2 => fvLt x y
  | 3 => fvLt x y || fvEq x y
  | 4 => fvLt y x
  | 5 => fvLt y x || fvEq x y
  | 6 => if isF then nan || fvLt x y else a < b
  | 7 => if isF then nan || fvLt x y || fvEq x y else a ≤ b
  | 8 => isF && nan
  | _ => false

/-- VCMP (R148). The lanes are those of A's tag, or of B's where A is null in every lane: an operand that R123 leaves
unchecked may have another tag, and no rule says which of the two then counts the lanes (DESIGN CHOICE, log 52). -/
def execVcmp (f : FmtA) (s : State) : Host.Outcome State Fault Refusal :=
  vecForm f [.a, .b] 1 (fun i _ =>
    let a := i.tok .a
    let b := i.tok .b
    let t := if allNull a then b.tag else a.tag
    if (allNull a || allNull b || a.tag == b.tag) && notNone a && notNone b then
      some (.scalar ((maskOf (laneN t) fun k =>
        if nullAt a k || nullAt b k then f.xf == 9
        else laneCmp f.xf.toNat t.toNat (lane a.vbits (laneW t) k) (lane b.vbits (laneW t) k)).setWidth 64))
    else none) s

/-- VSEL (R149). -/
def execVsel (f : FmtA) (s : State) : Host.Outcome State Fault Refusal :=
  vecForm f [.a, .b, .c] 1 (fun i _ =>
    if tagIs f.xf (i.tok .a) && tagIs f.xf (i.tok .b) then
      some (vecTok f.xf fun k =>
        let t := if (i.tok .c).word.getLsbD k then i.tok .a else i.tok .b
        if nullAt t k then none else some (lane t.vbits (laneW f.xf) k))
    else none) s

/-- VMASK (R149). -/
def execVmask (f : FmtA) (s : State) : Host.Outcome State Fault Refusal :=
  vecForm f [.a, .b] 1 (fun i _ =>
    let a := i.tok .a
    if notNone a then
      some (.vector a.vbits a.tag (maskOf (laneN a.tag) fun k => a.nulls.getLsbD k || !(i.tok .b).word.getLsbD k))
    else none) s

/-- VTMUL and VTADD: exact on the lane values, null outside the signed range (R150). -/
def triForm (f : FmtA) (op : Int → Int → Int) (s : State) : Host.Outcome State Fault Refusal :=
  vecForm f [.a, .b] 1 (fun i _ =>
    if tagIs f.xf (i.tok .a) && tagIs f.xf (i.tok .b) then
      some (vecTok 12 fun k =>
        if nullAt (i.tok .a) k || nullAt (i.tok .b) k then none
        else
          let v := op (triToInt (lane (i.tok .a).vbits 32 k)) (triToInt (lane (i.tok .b).vbits 32 k))
          if -536870400 ≤ v ∧ v ≤ 536870399 then some (intToTri v) else none)
    else none) s

/-- VTMUL (R150). -/
def execVtmul (f : FmtA) (s : State) : Host.Outcome State Fault Refusal := triForm f (· * ·) s
/-- VTADD (R150). -/
def execVtadd (f : FmtA) (s : State) : Host.Outcome State Fault Refusal := triForm f (· + ·) s

/-- VCVT (R151). -/
def execVcvt (f : FmtA) (s : State) : Host.Outcome State Fault Refusal :=
  vecForm f [.a] 1 (fun i sn =>
    let a := i.tok .a
    if notNone a then
      if a.tag == f.xf then some a
      else
        let k := min (laneN a.tag) (laneN f.xf)
        some (vecTok f.xf fun j =>
          if j < k then
            if a.nulls.getLsbD j then none
            else some (convert a.tag.toNat f.xf.toNat (rmode 0 sn.regs.fmode) (sn.regs.fmode.getLsbD 2)
              (lane a.vbits (laneW a.tag) j))
          else some 0)
    else none) s

/-- A value times 2^k, exact. -/
def scaleVal (v : FVal) (k : Int) : FVal :=
  match v with
  | .fin s m e => .fin s m (e + k)
  | x => x

/-- VSCALE (R152). -/
def execVscale (f : FmtA) (s : State) : Host.Outcome State Fault Refusal :=
  vecForm f [.a, .b] 1 (fun i sn =>
    match floatOf f.xf.toNat with
    | none => none
    | some g =>
      if tagIs f.xf (i.tok .a) then
        let k := clampInt (sext (i.tok .b).word 64) (-2048) 2048
        some (vecTok f.xf fun j =>
          if nullAt (i.tok .a) j then none
          else some (g.ofVal (rmode 0 sn.regs.fmode) (sn.regs.fmode.getLsbD 2)
            (scaleVal (g.decode (lane (i.tok .a).vbits (laneW f.xf) j)) k)))
      else none) s

/-- The accumulation format of a reduction (R153). -/
def accFmt (tag : Nat) : FloatFmt := if tag == 5 then f64 else f32

/-- The payload of a NaN generated in a reduction or leaf product (R133), aligned at bit 50. -/
def genPayload (f : FloatFmt) (seq k : Nat) : Nat := (seq % 16384 * 256 + k % 256) * 2 ^ (52 - f.fb)

/-- One level of the tree: adjacent values combine, rounded to nearest even in acc, as R153 states for the two reductions;
R134 gives vector forms FMODE's rounding, and no rule says which of the two yields (DESIGN CHOICE, log 52). -/
def treeLevel (f : FloatFmt) (level width : Nat) : Nat → List FVal → List FVal
  | n, a :: b :: t =>
    f.decode (f.ofVal .rne false (fvAdd .rne (genPayload f (n * width / 2) level) a b)) :: treeLevel f level width (n + 1) t
  | _, l => l

/-- The tree of R153: `fuel` levels, `width` lanes to a value at this level's results. -/
def treeSum (f : FloatFmt) : Nat → Nat → Nat → List FVal → FVal
  | 0, _, _, l => l.headD (.fin false 0 0)
  | n + 1, level, width, l => treeSum f n (level + 1) (2 * width) (treeLevel f level (2 * width) 0 l)

def log2Lanes (n : Nat) : Nat := if n == 4 then 2 else if n == 8 then 3 else if n == 16 then 4 else 5

/-- A reduction of lane values (R153): `v` gives each lane's exact value, `fl` its leaf as a float. -/
def reduce (tag : BitVec 4) (dead : Nat → Bool) (fl : FloatFmt → Nat → FVal) (it : Nat → Int) : Word :=
  let n := laneN tag
  let t := tag.toNat
  if (floatOf t).isSome then
    let acc := accFmt t
    let l := (List.range n).map fun k => if dead k then FVal.fin false 0 0 else fl acc k
    BitVec.ofNat 64 (acc.ofVal .rne false (treeSum acc (log2Lanes n) 1 1 l))
  else
    let sum := (List.range n).foldl (fun a k => a + (if dead k then 0 else it k)) (0 : Int)
    if t == 11 then toWord (clampW 32 sum) else toWord sum

/-- VDOT (R153). -/
def execVdot (f : FmtA) (s : State) : Host.Outcome State Fault Refusal :=
  vecForm f [.a, .b] 2 (fun i _ =>
    if tagIs f.xf (i.tok .a) && tagIs f.xf (i.tok .b) then
      let w := laneW f.xf
      let a := fun k => lane (i.tok .a).vbits w k
      let b := fun k => lane (i.tok .b).vbits w k
      some (.scalar (reduce f.xf (fun k => nullAt (i.tok .a) k || nullAt (i.tok .b) k)
        (fun acc k => acc.decode (acc.ofVal .rne false
          (fvMul (genPayload acc (k / 2) 0) (decodeTag f.xf.toNat (a k)) (decodeTag f.xf.toNat (b k)))))
        (fun k => sextNat (a k) w * sextNat (b k) w)))
    else none) s

/-- VRED (R153). -/
def execVred (f : FmtA) (s : State) : Host.Outcome State Fault Refusal :=
  vecForm f [.a] 2 (fun i _ =>
    if tagIs f.xf (i.tok .a) then
      let w := laneW f.xf
      some (.scalar (reduce f.xf (nullAt (i.tok .a))
        (fun _ k => decodeTag f.xf.toNat (lane (i.tok .a).vbits w k)) (fun k => sextNat (lane (i.tok .a).vbits w k) w)))
    else none) s

/-- VPERM (R154). -/
def execVperm (f : FmtA) (s : State) : Host.Outcome State Fault Refusal :=
  vecForm f [.a] 1 (fun i _ =>
    let a := i.tok .a
    let src := fun p => f.z.toNat / 8 ^ p % 8
    some (.vector (ofLanes 32 ((List.range 8).map fun p => lane a.vbits 32 (src p))) a.tag
      (nullsByByte a a.tag fun j => 4 * src (j / 4) + j % 4))) s

/-- VBCAST (R155). -/
def execVbcast (f : FmtA) (s : State) : Host.Outcome State Fault Refusal :=
  vecForm f [.a] 1 (fun i _ => some (vecTok f.xf fun _ => some ((i.tok .a).word.toNat % 2 ^ laneW f.xf))) s

/-- The lane VEXT and VINS name (R155). -/
def laneIndex (f : FmtA) (a : Token) : Nat := f.z.toNat % 32 % laneN a.tag

/-- VEXT (R155): int lanes sign-extended, others zero-extended, a null lane as the null token. -/
def execVext (f : FmtA) (s : State) : Host.Outcome State Fault Refusal :=
  vecForm f [.a] 1 (fun i _ =>
    let a := i.tok .a
    if notNone a then
      let j := laneIndex f a
      let w := laneW a.tag
      let v := lane a.vbits w j
      if a.nulls.getLsbD j then some .null
      else some (.scalar (if 1 ≤ a.tag.toNat ∧ a.tag.toNat ≤ 4 then extS (v : Nat) w else BitVec.ofNat 64 v))
    else none) s

/-- VINS (R155). -/
def execVins (f : FmtA) (s : State) : Host.Outcome State Fault Refusal :=
  vecForm f [.a, .b] 1 (fun i _ =>
    let a := i.tok .a
    if notNone a then
      let j := laneIndex f a
      let w := laneW a.tag
      some (.vector (ofLanes w ((List.range (laneN a.tag)).map fun k =>
          if k == j then (i.tok .b).word.toNat % 2 ^ w else lane a.vbits w k)) a.tag
        (maskOf (laneN a.tag) fun k => k != j && a.nulls.getLsbD k))
    else none) s

/-- VTAG (R156). -/
def execVtag (f : FmtA) (s : State) : Host.Outcome State Fault Refusal :=
  vecForm f [.a] 1 (fun i _ =>
    let a := i.tok .a
    some (.vector a.vbits f.xf (nullsByByte a f.xf id))) s

end Sys2Proof.Machine
end

