-- ==== Sys2Proof/Machine/Rate.lean ====
section
/-! DEFINITION. Rate sets at their home (R314 to R325): each form is one indivisible action on descriptor and records. -/

namespace Sys2Proof.Machine

/-- A descriptor as read (Table 2 of R315). -/
structure RateDesc where
  off : Nat
  mbase : Nat
  w1 : Nat
  lohi : Nat
  w3 : Nat
  deriving DecidableEq, Repr

def RateDesc.count (d : RateDesc) : Nat := bits d.w1 16 0
def RateDesc.lanes (d : RateDesc) : Nat := 2 ^ bits d.w1 18 17
def RateDesc.kmax (d : RateDesc) : Nat := bits d.w1 21 19
def RateDesc.extrapolate (d : RateDesc) : Bool := d.w1.testBit 22
def RateDesc.v (d : RateDesc) : Bool := d.w1.testBit 23
def RateDesc.n (d : RateDesc) : Nat := bits d.w1 63 32
def RateDesc.cursor (d : RateDesc) : Nat := bits d.w3 16 0
def RateDesc.due (d : RateDesc) : Nat := bits d.w3 33 17
def RateDesc.taken (d : RateDesc) : Nat := bits d.w3 50 34
/-- Record size (Table 1 of R314). -/
def RateDesc.rsz (d : RateDesc) : Nat := (16 + 12 * d.lanes + 15) / 16 * 16
/-- Pool offset of member m (R316). -/
def RateDesc.member (d : RateDesc) (m : Nat) : Nat := d.mbase + m * d.rsz

/-- The descriptor at an offset of a core's pool. -/
def descAt (m : List Host.Cell) (core off : Nat) : RateDesc :=
  let b := Mem.read m (poolKey core off) 32
  { off := off, mbase := field b 0 8, w1 := field b 8 8, lohi := field b 16 8, w3 := field b 24 8 }

def readDesc (core off : Nat) : M RateDesc := do return descAt (← getS).mem core off

def ctz32 (n : Nat) : Nat := if n == 0 then 32 else (List.range 32).findIdx fun i => n.testBit i

/-- A member's record as read (Table 3 of R316). -/
structure Member where
  k : Nat
  kn : Nat
  pend : Bool
  last : Nat
  clm : Nat
  cur : List Nat
  next : List Nat
  slope : List Nat
  deriving DecidableEq, Repr

def f32List (b : List Byte) (at_ n : Nat) : List Nat := (List.range n).map fun i => field b (at_ + 4 * i) 4

/-- Member m's record of a set in a core's pool. -/
def memberAt (mem : List Host.Cell) (core : Nat) (d : RateDesc) (m : Nat) : Member :=
  let b := Mem.read mem (poolKey core (d.member m)) d.rsz
  let h := field b 0 8
  let l := d.lanes
  { k := bits h 2 0, kn := bits h 6 4, pend := h.testBit 8, last := bits h 63 32, clm := field b 8 4,
    cur := f32List b 16 l, next := f32List b (16 + 4 * l) l, slope := f32List b (16 + 8 * l) l }

def readMember (core : Nat) (d : RateDesc) (m : Nat) : M Member := do return memberAt (← getS).mem core d m

/-- pending, k_eff, cur_eff and due of R317. -/
def Member.pending (x : Member) (n : Nat) : Bool := x.pend && x.last < n
def Member.kEff (x : Member) (n : Nat) : Nat := if x.pending n then x.kn else x.k
def Member.curEff (x : Member) (n : Nat) : List Nat := if x.pending n then x.next else x.cur
def Member.isDue (x : Member) (n : Nat) : Bool := n == 0 || x.kEff n ≤ ctz32 n

/-- Write some bits of an 8-byte word, the others kept. -/
def patch64 (core off hi lo v : Nat) : M Unit := do
  let w := (← peek64 (poolKey core off)).toNat
  let m := 2 ^ (hi + 1 - lo)
  poolWrite64 core off (BitVec.ofNat 64 (w - bits w hi lo * 2 ^ lo + v % m * 2 ^ lo))

def patch32 (core off : Nat) (f : Nat → Nat) : M Unit := do
  let w := ofBytes (← peek (poolKey core off) 4)
  poolWrite core off (bytesOf 4 (f w))

/-- fold(m) of R317. -/
def foldMember (core : Nat) (d : RateDesc) (m : Nat) (x : Member) : M Unit := do
  if x.pending d.n then
    poolWrite core (d.member m + 16) (x.next.flatMap (bytesOf 4))
    patch64 core (d.member m) 2 0 x.kn
    patch64 core (d.member m) 8 8 0

/-- The rounding of an exact difference over a nonzero integer to F32 (R323): LAST may lie above N where software stored
it so (R319), and the divisor is then negative. -/
def slopeOf (a b : FVal) (d : Int) : Nat :=
  let neg := decide (d < 0)
  match fvSub .rne 0 a b with
  | .nan s p => f32.nan s p
  | .inf s => f32.inf (s != neg)
  | .fin s m e => if m == 0 then f32.signBit (s != neg) else f32.round .rne false (s != neg) m d.natAbs e

/-- d_i of R323. -/
def laneChange (a b : FVal) : FVal :=
  if a.isNan || b.isNan then .inf false
  else if fvEq a b then .fin false 0 0
  else if a.isInf || b.isInf then .inf false
  else match fvSub .rne 0 a b with
    | .fin _ m e => .fin false m e
    | _ => .inf false

/-- Δ of R323: the greatest change of a lane. -/
def rateDelta (lanes : Nat) (new cur : List Nat) : FVal :=
  (List.range lanes).foldl (fun a i =>
    let c := laneChange (f32.decode (new.getD i 0)) (f32.decode (cur.getD i 0))
    if fvLt a c then c else a) (.fin false 0 0)

/-- k′ of R323. -/
def rateClass (d : RateDesc) (k : Nat) (delta : FVal) : Nat :=
  if fvLt (f32.decode (bits d.lohi 63 32)) delta then 0
  else if fvLt delta (f32.decode (bits d.lohi 31 0)) then min (k + 1) d.kmax else k

/-- What the home does with each record a form touches beside changing it: its watch check (R373), given the offset, the
bytes, and whether they are read and written. -/
abbrev RateWatch := Nat → Nat → Bool → Bool → M Unit

/-- A record with a double-bit error is consumed (R166): the refusal, at the address of its word. -/
def memberBad (core off : Nat) (d : RateDesc) (m : Nat) (ea : Word) : M (Option ReplyBody) := do
  match ← eccRead core (d.member m) d.rsz with
  | some b => return some (.refused 0x10 (ea + BitVec.ofNat 64 b - BitVec.ofNat 64 off))
  | none => return none

/-- Members that RSNEXT examines from m up, at most `fuel`: those to the first that is due (R322). -/
def examined (mem : List Host.Cell) (core : Nat) (d : RateDesc) : Nat → Nat → List Nat
  | 0, _ => []
  | fuel + 1, m =>
    if m ≥ d.count then []
    else if (memberAt mem core d m).kEff d.n ≤ ctz32 d.n then [m]
    else m :: examined mem core d fuel (m + 1)

/-- The first record of a list with a double-bit error: its refusal; those before it are corrected (R166). -/
def membersBad (core off : Nat) (d : RateDesc) (ea : Word) : List Nat → M (Option ReplyBody)
  | [] => return none
  | m :: t => do
    match ← memberBad core off d m ea with
    | some b => return some b
    | none => membersBad core off d ea t

/-- RSNEXT's scan (R322): the members from CURSOR up, at most `fuel`, all of whose records can be read. -/
def rateScan (core : Nat) (d : RateDesc) (watch : RateWatch) : Nat → Nat → M ReplyBody
  | 0, _ => return .value (BitVec.allOnes 64)
  | fuel + 1, m => do
    if m ≥ d.count then return .value (BitVec.allOnes 64)
    patch64 core (d.off + 24) 16 0 (m + 1)
    let x ← readMember core d m
    foldMember core d m x
    let due := decide (x.kEff d.n ≤ ctz32 d.n)
    watch (d.member m) d.rsz true (x.pending d.n || due)
    if due then
      poolWrite core (d.member m + 8) (bytesOf 4 d.n)
      patch64 core (d.off + 24) 50 34 (d.taken + 1)
      return .value (BitVec.ofNat 64 m)
    else rateScan core d watch fuel (m + 1)

/-- How long a form holds the port, and what it touches, once the CURSOR it leaves is known (R319). -/
def rateHold (core off : Nat) (op : RateOp) : M ((Nat → List (Nat × Nat)) × (Nat → Nat)) := do
  let d ← readDesc core off
  let desc := (off, 64)
  let member := fun (m : Nat) => if m < d.count then [desc, (d.member m, d.rsz)] else [desc]
  return match op with
    | .init => (fun _ => [desc, (d.mbase, d.count * d.rsz)], fun _ => 2 + (d.count * d.rsz + 63) / 64)
    | .next => (fun c => [desc, (d.member d.cursor, (c - d.cursor) * d.rsz)], fun c => 2 + (c - d.cursor))
    | .read m | .put m _ _ => (fun _ => member m.toNat, fun _ => 4)
    | .begin | .stat => (fun _ => [desc], fun _ => 4)

/-- RSINIT resets every record (R320). -/
def rateInitMembers (core : Nat) (d : RateDesc) (watch : RateWatch) : Nat → Nat → M Unit
  | 0, _ => return ()
  | fuel + 1, m => do
    let x ← readMember core d m
    let body := bytesOf 16 0 ++ (x.cur.flatMap (bytesOf 4)) ++ (x.cur.flatMap (bytesOf 4)) ++ bytesOf (4 * d.lanes) 0
    poolWrite core (d.member m) (body ++ bytesOf (d.rsz - body.length) 0)
    watch (d.member m) d.rsz true true
    rateInitMembers core d watch fuel (m + 1)

/-- The form performed at the home (R319): `inside` says whether a record region passes R318. -/
def rateAction (core off : Nat) (op : RateOp) (ea : Word) (inside : Nat → Nat → Bool) (watch : RateWatch) : M ReplyBody := do
  let d ← readDesc core off
  let region := inside d.mbase (d.mbase + d.count * d.rsz)
  let isInit := match op with
    | .init => true
    | _ => false
  match ← eccRead core off 64 with
  | some b => return .refused 0x10 (ea + BitVec.ofNat 64 (b - off))
  | none => pure ()
  if !isInit && d.v && !region then return .refused 0x02 ea
  match op with
  | .init =>
    let lo := f32.decode (bits d.lohi 31 0)
    let hi := f32.decode (bits d.lohi 63 32)
    if bits d.w1 31 24 != 0 || d.count == 0 || d.count > 65536 then return .value 1
    if bits d.mbase 63 22 != 0 || bits d.mbase 3 0 != 0 then return .value 2
    if d.kmax > 7 then return .value 3
    if d.mbase + d.count * d.rsz > poolSize || !region then return .value 4
    if lo.isNan || hi.isNan || fvLt hi lo then return .value 5
    match ← eccRead core d.mbase (d.count * d.rsz) with
    | some b => return .refused 0x10 (ea + BitVec.ofNat 64 b - BitVec.ofNat 64 off)
    | none => pure ()
    rateInitMembers core d watch d.count 0
    poolWrite64 core (off + 8) (BitVec.ofNat 64 (bits d.w1 22 0 + 2 ^ 23))
    poolWrite64 core (off + 24) 0
    poolWrite core (off + 32) (bytesOf 4 d.count ++ bytesOf 28 0)
    return .value 0
  | .begin =>
    if !d.v || d.n == 2 ^ 32 - 1 then return .value 0
    let n := d.n + 1
    let nk ← peek (poolKey core (off + 32)) 32
    let due := (List.range (min (ctz32 n) 7 + 1)).foldl (fun a j => a + field nk (4 * j) 4) 0
    patch64 core (off + 8) 63 32 n
    poolWrite64 core (off + 24) (BitVec.ofNat 64 (bits d.w3 63 51 * 2 ^ 51 + due % 2 ^ 17 * 2 ^ 17))
    return .value (BitVec.ofNat 64 n)
  | .next =>
    if !d.v || d.n == 0 then return .value (BitVec.allOnes 64)
    match ← membersBad core off d ea (examined (← getS).mem core d (d.count - d.cursor) d.cursor) with
    | some b => return b
    | none => rateScan core d watch (d.count - d.cursor) d.cursor
  | .read m =>
    if !d.v || m.toNat ≥ d.count then return .refused 0x02 ea
    match ← memberBad core off d m.toNat ea with
    | some b => return b
    | none => pure ()
    let x ← readMember core d m.toNat
    watch (d.member m.toNat) d.rsz true false
    let eff := x.curEff d.n
    let diff := (d.n : Int) - x.last
    let steps := f32.decode (f32.ofFin .rne false (diff < 0) diff.natAbs 0)
    let val := fun i =>
      if !d.extrapolate || x.isDue d.n then eff.getD i 0
      else f32.ofVal .rne false (fvFma .rne 0 (f32.decode (x.slope.getD i 0)) steps (f32.decode (eff.getD i 0)))
    match vecTok 6 fun i => if i < d.lanes then some (val i) else none with
    | .vector b _ n => return .vec b n
    | _ => return .vec 0 0
  | .put mw vals nulls =>
    let m := mw.toNat
    if !d.v || d.n == 0 || m ≥ d.count then return .value 0
    match ← memberBad core off d m ea with
    | some b => return b
    | none => pure ()
    let x ← readMember core d m
    if x.clm != d.n || x.last == d.n then
      watch (d.member m) d.rsz true false
      return .value 0
    let new := (List.range d.lanes).map fun i => if nulls.getLsbD i then x.cur.getD i 0 else lane vals 32 i
    let dec := fun (l : List Nat) i => f32.decode (l.getD i 0)
    let slope := (List.range d.lanes).map fun i =>
      if x.last == 0 then 0 else slopeOf (dec new i) (dec x.cur i) ((d.n : Int) - x.last)
    let k := rateClass d x.k (rateDelta d.lanes new x.cur)
    poolWrite core (d.member m + 16 + 4 * d.lanes) (new.flatMap (bytesOf 4) ++ slope.flatMap (bytesOf 4))
    patch32 core (off + 32 + 4 * x.kn) fun v => v + 2 ^ 32 - 1
    patch32 core (off + 32 + 4 * k) fun v => v + 1
    patch64 core (d.member m) 6 4 k
    patch64 core (d.member m) 63 32 d.n
    patch64 core (d.member m) 8 8 1
    watch (d.member m) d.rsz true true
    return .value (BitVec.ofNat 64 (0x100 + k))
  | .stat =>
    if !d.v then return .value 0
    return .value (BitVec.ofNat 64 (d.n + (d.due + 2 ^ 17 - d.taken) % 2 ^ 17 * 2 ^ 32 + 2 ^ 49))

end Sys2Proof.Machine
end

