-- ==== Sys2Proof/Machine/Arena.lean ====
section
/-! DEFINITION. What a node arena holds (R247, R250, R252) and the operations that are performed at its home in one piece
(R253). -/

namespace Sys2Proof.Machine

/-! ### Nodes (R247) -/

structure Node where
  ref : Nat
  w0 : Nat
  w1 : Nat
  w2 : Nat
  w3 : Nat
  deriving DecidableEq, Repr

def Node.kind (n : Node) : Nat := bits n.w0 63 60
def Node.fmt (n : Node) : Nat := bits n.w0 59 56
def Node.s (n : Node) : Nat := bits n.w0 55 51
def Node.rankm1 (n : Node) : Nat := bits n.w0 50 44
def Node.count (n : Node) : Nat := bits n.w0 31 0
def Node.ld (n : Node) : Nat := bits n.w2 31 0
def Node.swz (n : Node) : Nat := bits n.w2 63 32
/-- Children NW, NE, SW, SE. -/
def Node.kids (n : Node) : List Nat := [bits n.w1 31 0, bits n.w1 63 32, bits n.w2 31 0, bits n.w2 63 32]

/-- Bytes of an element of a format. -/
def elemSize (fmt : Nat) : Nat := tagBits fmt / 8

/-- w0 of a node. -/
def nodeW0 (kind fmt s rankm1 count : Nat) : Nat :=
  kind * 2 ^ 60 + fmt * 2 ^ 56 + s * 2 ^ 51 + rankm1 * 2 ^ 44 + count

/-- Payload bytes (Table 3 of R250). -/
def Node.bytes (n : Node) : Nat :=
  let e := elemSize n.fmt
  let side := 2 ^ n.s
  match n.kind with
  | 3 => side * e
  | 4 => 2 * side * (n.rankm1 + 1) * e
  | 5 => (side - 1) * n.ld * e + side * e
  | _ => 0

/-- The node a slot's 32 bytes hold. -/
def nodeOfBytes (ref : Nat) (b : List Byte) : Node :=
  { ref := ref, w0 := field b 0 8, w1 := field b 8 8, w2 := field b 16 8, w3 := field b 24 8 }

/-! ### Arenas (R252) -/

structure Arena where
  free : Nat
  nfree : Nat
  bump : Nat
  ptop : Nat
  limit : Nat
  live : Nat
  dead : Nat
  fails : Nat
  rest : Nat
  deriving DecidableEq, Repr

def arenaOfBytes (b : List Byte) : Arena :=
  let f := fun i => field b (4 * i) 4
  { free := f 0, nfree := f 1, bump := f 2, ptop := f 3, limit := f 4, live := f 5, dead := f 6, fails := f 7,
    rest := field b 32 32 }

def Arena.bytes (a : Arena) : List Byte :=
  [a.free, a.nfree, a.bump, a.ptop, a.limit, a.live, a.dead, a.fails].flatMap (bytesOf 4)

/-- Whether the descriptor is valid (R252). -/
def Arena.ok (a : Arena) (slots : Nat) : Bool :=
  2 ≤ a.bump && a.bump ≤ a.ptop && a.ptop ≤ a.limit && a.limit ≤ slots && a.rest == 0

/-- A payload address inside the payload region of a core's arena (R250, R253). -/
def inRegion (ab : Nat) (a : Arena) (p : Nat) : Bool := ab + 32 * a.ptop ≤ p && p < ab + 32 * a.limit

/-- Where the arena of a core begins, and its slots (R163, R252). -/
def arenaPlace (s : State) (k : Nat) : Nat × Nat :=
  let p := (s.core k).regs.partw
  (arenaBase p, 512 * wbitsOf p 7 0)

/-- alloc_node and alloc_payload of R253: the descriptor afterwards and the answer, 0 and what has been allocated, or 2
when the arena is full; `next` is the index that the first free slot holds. -/
def Arena.alloc (a : Arena) (op : ArenaOp) (ab next : Nat) : Arena × List Nat :=
  let full := ({ a with fails := (a.fails + 1) % 2 ^ 32 }, [2])
  match op with
  | .node =>
    if a.free != 0 then
      ({ a with free := next, nfree := (a.nfree + 2 ^ 32 - 1) % 2 ^ 32, live := (a.live + 1) % 2 ^ 32 }, [0, a.free])
    else if a.bump < a.ptop then ({ a with bump := a.bump + 1, live := (a.live + 1) % 2 ^ 32 }, [0, a.bump])
    else full
  | .run m => if a.ptop < a.bump + m then full else ({ a with ptop := a.ptop - m }, [0, ab + 32 * (a.ptop - m)])
  | .free _ => (a, [])

/-- One operation of R253, performed at the arena's home; none when a word of it holds an uncorrectable error (R166). The
home check follows (R373). An allocation from an arena whose descriptor is not valid answers 1 (R252). -/
def arenaPerform (k : Nat) (op : ArenaOp) (who : Agent) : M (Option (List Nat)) := do
  let (ab, slots) := arenaPlace (← getS) k
  if (← eccRead k ab 64).isSome then return none
  let a := arenaOfBytes (← peek (poolKey k ab) 64)
  let put := fun (a : Arena) => do
    poolWrite k ab a.bytes
    homeWatch k ab 64 true true who
  match op with
  | .free i =>
    let o := ab + 32 * i
    if (← eccRead k o 32).isSome then return none
    let n := nodeOfBytes 0 (← peek (poolKey k o) 32)
    let d := if 3 ≤ n.kind && n.kind ≤ 5 && inRegion ab a n.w1 then (n.bytes + 31) / 32 else 0
    holdPort k [(ab, 64), (o, 32)] 1
    poolWrite k o ([0xF * 2 ^ 60, a.free, 0, 0].flatMap (bytesOf 8))
    homeWatch k o 32 true true who
    put { a with dead := (a.dead + d) % 2 ^ 32, free := i, nfree := (a.nfree + 1) % 2 ^ 32, live := (a.live + 2 ^ 32 - 1) % 2 ^ 32 }
    return some [a.free]
  | _ =>
    if slots == 0 || !a.ok slots then
      homeWatch k ab 64 true false who
      return some [1]
    let o := ab + 32 * a.free + 8
    let next ← if op == .node && a.free != 0 then do
        if (← eccRead k o 4).isSome then return none
        homeWatch k o 4 true false who
        holdPort k [(ab, 64), (o, 4)] 1
        pure (ofBytes (← peek (poolKey k o) 4))
      else pure 0
    let (a', r) := a.alloc op ab next
    countCluster (k / 8) (if r.headD 0 == 0 then 0x4A else 0x4B)
    put a'
    return some r

end Sys2Proof.Machine
end

