-- ==== Sys2Proof/Machine/Move.lean ====
section
/-! DEFINITION. The MOVE forms and control registers (R97, R101 to R106, R116 to R119), and what writing each register
does (R164, R170, R204, R205, R366, R371). -/

namespace Sys2Proof.Machine

/-- EVSTAT (Table 2 of R366). -/
def evstat (k : CoreRegs) : Word :=
  BitVec.ofNat 64 (k.ovf.toNat + k.almidx.toNat * 256 + (if k.almwrap then 2 ^ 16 else 0))

/-- The kept bits of a control register (Tables 2 and 3). A number that names no register reads 0: the scanner
refuses it (R103). -/
def readCtrl (sn : Snap) (n : Nat) : Word :=
  let r := sn.regs
  let k := sn.core
  match n with
  | 0x00 => r.fmode.setWidth 64
  | 0x01 => r.wspin.setWidth 64
  | 0x02 => r.wlimit.setWidth 64
  | 0x03 => r.slimit
  | 0x04 => r.tvec
  | 0x05 => r.tcause.setWidth 64
  | 0x06 => r.taddr
  | 0x07 => r.tblk
  | 0x08 => r.tidx.setWidth 64
  | 0x09 => r.stealdom.setWidth 64
  | 0x0A => r.xsig
  | 0x0B => r.tsave
  | 0x20 => k.partw
  | 0x29 => k.asid
  | 0x2A => k.rwtb
  | 0x2B => sn.cluster.pagerq
  | 0x38 => evstat k
  | 0x3C => k.wpaddr
  | 0x3D => k.wpmask
  | 0x3E => k.wpctl.setWidth 64
  | n =>
    if 0x21 ≤ n ∧ n ≤ 0x28 then vget 0 k.lprot (n - 0x21)
    else if 0x30 ≤ n ∧ n ≤ 0x33 then (vget 0 k.evsel (n - 0x30)).setWidth 64
    else if 0x34 ≤ n ∧ n ≤ 0x37 then (vget 0 k.evcnt (n - 0x34)).setWidth 64
    else if 0x40 ≤ n ∧ n ≤ 0x47 then (vget 0 sn.cluster.sel (n - 0x40)).setWidth 64
    else if 0x48 ≤ n ∧ n ≤ 0x4F then (vget 0 sn.cluster.cnt (n - 0x48)).setWidth 64
    else 0

/-- A number of Table 3 (R102). -/
def privileged (n : Nat) : Bool := 0x20 ≤ n

/-- LPROTn keeps no bits [24:22] and [2:0] (Table 5 of R168). -/
def lprotKept (v : Word) : Word := v &&& ~~~(0x1C00007 : Word)

/-- Write a task-level register (Table 2). -/
def writeTaskReg (r : Regs) (n : Nat) (v : Word) : Regs :=
  match n with
  | 0x00 => { r with fmode := v.setWidth 3 }
  | 0x01 => { r with wspin := v.setWidth 16 }
  | 0x02 => { r with wlimit := v.setWidth 32 }
  | 0x03 => { r with slimit := v }
  | 0x04 => { r with tvec := v }
  | 0x09 => { r with stealdom := v.setWidth 3 }
  | 0x0A => { r with xsig := v }
  | 0x0B => { r with tsave := v }
  | _ => r

/-- Write a core-scope register (Table 3). -/
def writeCoreReg (k : CoreRegs) (n : Nat) (v : Word) : CoreRegs :=
  match n with
  | 0x20 => { k with partw := v &&& 0xFFFFFF }
  | 0x29 => { k with asid := v &&& 0xFFFFFFFFFFFF }
  | 0x2A => { k with rwtb := v }
  | 0x38 => { k with ovf := v.setWidth 4, almwrap := v.getLsbD 16 }
  | 0x3C => { k with wpaddr := v &&& ~~~(0x3F : Word) }
  | 0x3D => { k with wpmask := v }
  | 0x3E => { k with wpctl := v.setWidth 24 }
  | n =>
    if 0x21 ≤ n ∧ n ≤ 0x28 then { k with lprot := vset k.lprot (n - 0x21) (lprotKept v) }
    else if 0x30 ≤ n ∧ n ≤ 0x33 then { k with evsel := vset k.evsel (n - 0x30) (v.setWidth 13) }
    else if 0x34 ≤ n ∧ n ≤ 0x37 then { k with evcnt := vset k.evcnt (n - 0x34) (v.setWidth 48) }
    else k

/-- Write a cluster-scope register (Table 3). -/
def writeClusterReg (k : ClusterRegs) (n : Nat) (v : Word) : ClusterRegs :=
  if n = 0x2B then { k with pagerq := v }
  else if 0x40 ≤ n ∧ n ≤ 0x47 then { k with sel := vset k.sel (n - 0x40) (v.setWidth 9) }
  else if 0x48 ≤ n ∧ n ≤ 0x4F then { k with cnt := vset k.cnt (n - 0x48) (v.setWidth 48) }
  else k

/-- Cluster-scope numbers. -/
def clusterScope (n : Nat) : Bool := n == 0x2B || 0x40 ≤ n

/-- The three words of window n of a table of 256 bytes (Table 6 of R170). -/
def windowAt (table : List Byte) (n : Nat) : Word × Word × Word :=
  (fieldWord table (32 * n), fieldWord table (32 * n + 8), fieldWord table (32 * n + 16))

/-- Event counters, their selects and status: a read samples them at the start of a clock, and an MTC is applied after
that (R367). -/
def counterReg (n : Nat) : Bool := 0x30 ≤ n && n ≤ 0x38

/-- An MTC takes effect at its block's commit (R104, R118). One to a counter or to a cluster-scope register is applied
when its clock ends, before the clock's events and in ascending local index (R106, R367). -/
def applyMtc (core ctx n : Nat) (v : Word) : M Unit := do
  if n < 0x20 then modCtx core ctx fun c => { c with regs := writeTaskReg c.regs n v }
  else if clusterScope n then modCluster (core / 8) fun k => { k with mtcs := k.mtcs ++ [(core % 8, n, v)] }
  else if counterReg n then modCore core fun k => { k with mtcs := k.mtcs ++ [(n, v)] }
  else
    modCore core fun k => { k with regs := writeCoreReg k.regs n v }
    if n = 0x2A then
      let table ← agentRead (core / 8) core v.toNat 256 (← ctxAgent core ctx)
      modCore core fun k => { k with windows := Vector.ofFn fun i => windowAt table i.val }
    if n = 0x3E then modCore core fun k => { k with watched := [] }

/-- The MTCs of a clock applied to a core's counters and selects. -/
def Core.applyMtcs (k : Core) : Core :=
  { k with regs := k.mtcs.foldl (fun r x => writeCoreReg r x.1 x.2) k.regs, mtcs := [] }

/-- The MTCs of a clock applied to a cluster's registers: of several writers the highest local index stands (R106). -/
def Cluster.applyMtcs (k : Cluster) : Cluster :=
  { k with
    regs := ((List.range 8).flatMap fun i => k.mtcs.filter (·.1 == i)).foldl
      (fun r x => writeClusterReg r x.2.1 x.2.2) k.regs
    mtcs := [] }

/-- The core holds a task other than this context's (R164). -/
def holdsOthers (s : State) (core ctx : Nat) : Bool :=
  let k := s.core core
  ((List.range 16).any fun c => c != ctx && (s.ctx core c).status != .free) || !k.pslots.isEmpty || !k.deque.isEmpty ||
    !k.arrivals.isEmpty || !k.requeue.isEmpty

/-- The value checks of MTC at its commit point: the cause and TADDR of the first that fails (R118, R164, R170, R204,
R205). -/
def mtcRefused (s : State) (core ctx : Nat) (sup : Bool) (n : Nat) (v : Word) : Option (BitVec 8 × Word) :=
  if privileged n && !sup then some (0x11, BitVec.ofNat 64 n)
  else if 5 ≤ n && n ≤ 8 then some (0x11, BitVec.ofNat 64 n)
  else
    let bad : Bool := match n with
      | 0x09 => v.toNat > 4
      | 0x20 => !partwOk v || holdsOthers s core ctx
      | 0x2A => v.toNat % 32 != 0 || v.toNat + 256 > poolSize
      | 0x29 =>
        let p := s.partRec core
        wbitsOf v 63 48 != 0 || !(p.abase ≤ asidOf v && asidOf v < p.abase + p.acount)
      | 0x2B =>
        v != 0 && (v.toNat % 4096 != 0 || (match classify v 0x1000, s.supPart with
          | .core id off, some p => (s.phys p id).isNone || poolSize < off + 0x1000
          | _, _ => true))
      | _ => false
    if bad then some (0x02, v) else none

/-- MOV (R116). -/
def execMov (f : FmtA) (s : State) : Host.Outcome State Fault Refusal := pureA f [.a] 1 (fun i _ => i.tok .a) s

/-- MOVI (R116). -/
def execMovi (f : FmtK) (s : State) : Host.Outcome State Fault Refusal :=
  pureForm f.gm ([f.t0, f.t1].filterMap id) [] 1 false (fun _ _ => .scalar (toWord f.imm.toInt)) s

/-- MOVHI (R116). -/
def execMovhi (f : FmtA) (s : State) : Host.Outcome State Fault Refusal :=
  pureA f [.a] 1 (fun i _ =>
    .scalar (BitVec.ofNat 64 ((i.tok .a).word.toNat % 2 ^ 48 + f.z.toNat % 2 ^ 16 * 2 ^ 48))) s

/-- NULL (R116). -/
def execNull (f : FmtA) (s : State) : Host.Outcome State Fault Refusal := pureA f [] 1 (fun _ _ => .null) s

/-- GET (R97): the value at block start. -/
def execGet (f : FmtG) (s : State) : Host.Outcome State Fault Refusal :=
  pureForm f.gm (targetList f.t) [] 1 false (fun _ sn =>
    if f.vec then
      let v := vget {} sn.regs.v (f.reg.toNat % 8)
      .vector v.bits v.tag 0
    else .scalar (vget 0 sn.regs.g f.reg.toNat)) s

/-- MFC (R117). -/
def execMfc (f : FmtA) (s : State) : Host.Outcome State Fault Refusal :=
  let n := f.z.toNat % 256
  fireM f.gm (targetList f.t) [] false (fun _ w => do
    if privileged n && !s.curCtx.task.sup then raise 0x11 (BitVec.ofNat 64 n)
    else emitCur (targetList f.t) (.scalar (readCtrl w.snap n)) 1) s

/-- MTC (R118): the checks at the commit point; the write is made at commit. -/
def execMtc (f : FmtA) (s : State) : Host.Outcome State Fault Refusal :=
  let n := f.z.toNat % 256
  fireM f.gm [] [.a] true (fun i _ => do
    let v := (i.tok .a).word
    match mtcRefused s s.cur.core s.cur.ctx s.curCtx.task.sup n v with
    | some (c, a) => raise c a
    | none =>
      emitCur [] .null 1
      modCtx s.cur.core s.cur.ctx fun c => c.onWin fun w =>
        { w with mtc := some (BitVec.ofNat 8 n, v), committed := true }) s

/-- GTID (R79, R116). -/
def execGtid (f : FmtA) (s : State) : Host.Outcome State Fault Refusal :=
  pureA f [] 1 (fun _ _ => .scalar s.curCtx.task.gtid) s

/-- CORE (R8, R116): the logical core id and the context. -/
def execCore (f : FmtA) (s : State) : Host.Outcome State Fault Refusal :=
  pureA f [] 1 (fun _ _ => .scalar (BitVec.ofNat 64 (s.logical s.cur.core * 16 + s.cur.ctx))) s

/-- CLK (R116). -/
def execClk (f : FmtA) (s : State) : Host.Outcome State Fault Refusal :=
  pureA f [] 1 (fun _ _ => .scalar s.clk) s

/-- SIGCHK (R119). -/
def execSigchk (f : FmtA) (s : State) : Host.Outcome State Fault Refusal :=
  fireM f.gm (targetList f.t) [.a] false (fun i w => do
    if (i.tok .a).word == w.snap.regs.xsig then emitCur (targetList f.t) (predTok true) 1
    else sigMismatch s.cur.core s.cur.ctx (some (i.tok .a).word)) s

end Sys2Proof.Machine
end

