-- ==== Sys2Proof/Machine/Exit.lean ====
section
/-! DEFINITION. The exit forms (R76 to R78) and the SYS forms (R331, R332). -/

namespace Sys2Proof.Machine

/-- Fire a non-null exit: its link goes to the targets; a second non-null exit is BADEXIT at once (R70). -/
def fireExit (ts : List Target) (link : Token) (a : Word) : M Unit := do
  let cur := (← getS).cur
  emitCur ts link 1
  let c ← getCtx cur.core cur.ctx
  if c.win.exits.isEmpty then
    modCtx cur.core cur.ctx fun c => c.onWin fun w => { w with exits := w.exits ++ [{ idx := cur.idx, a := a }] }
  else badExit cur.core cur.ctx

def exitTargets (f : FmtB) : List Target := [f.t0, f.t1].filterMap id

/-- BRA (R77). -/
def execBra (f : FmtB) (s : State) : Host.Outcome State Fault Refusal :=
  fireM f.gm [] [] false (fun _ _ => fireExit [] .null 0) s

/-- JMP (R77). -/
def execJmp (f : FmtB) (s : State) : Host.Outcome State Fault Refusal :=
  fireM f.gm [] [.a] false (fun i _ => fireExit [] .null (i.tok .a).word) s

/-- CALL (R31, R76, R77): the link is the address of the block that follows in memory. -/
def execCall (f : FmtB) (s : State) : Host.Outcome State Fault Refusal :=
  fireM f.gm (exitTargets f) [] false (fun _ w =>
    fireExit (exitTargets f) (.scalar (ea w.addr (12 * (w.header.len + 2)))) 0) s

/-- RET (R77). -/
def execRet (f : FmtB) (s : State) : Host.Outcome State Fault Refusal :=
  fireM f.gm [] [.a] false (fun i _ => fireExit [] .null (i.tok .a).word) s

/-- TEND (R77, R80). -/
def execTend (f : FmtB) (s : State) : Host.Outcome State Fault Refusal :=
  fireM f.gm [] [] false (fun _ _ => fireExit [] .null 0) s

/-- TRAP (R77). -/
def execTrap (f : FmtB) (s : State) : Host.Outcome State Fault Refusal :=
  fireM f.gm [] [] false (fun _ _ => fireExit [] .null 0) s

/-- MIG (R77, R78): the address is checked before commit. -/
def execMig (f : FmtB) (s : State) : Host.Outcome State Fault Refusal :=
  fireM f.gm [] [.a] false (fun i _ => do
    let a := (i.tok .a).word
    let sp := bits a.toNat 63 60
    let named := match classify a 1 with
      | .core id _ => (s.phys (s.partOf s.cur.core) id).isSome
      | _ => false
    if sp == 0 || sp == 8 || (sp == 1 && named) then fireExit [] .null a
    else raise 0x04 a) s

/-- RFE (R331): outside a handler PROT; with a bad TSAVE the task is terminated; else the block's exit. -/
def execRfe (f : FmtS) (s : State) : Host.Outcome State Fault Refusal :=
  fireM f.gm [] [] false (fun _ w => do
    let c := s.curCtx
    if !c.regs.hf then raise 0x02 0
    else if !tsaveOk w.snap.regs.tsave then
      notice (s.cur.core / 8) 0x02 127 (← asidNow s.cur.core) c.task.gtid w.addr 0
      abort s.cur.core s.cur.ctx .terminate
    else fireExit [] .null (BitVec.ofNat 64 f.z.toNat)) s

/-- BKPT (R332): with a debugger attached the block aborts and the context becomes HALTED; else no effect. -/
def execBkpt (f : FmtS) (s : State) : Host.Outcome State Fault Refusal :=
  fireM f.gm [] [] false (fun _ w => do
    if (s.partRec s.cur.core).attached && !w.skip.bkpt then
      modCtx s.cur.core s.cur.ctx fun c => { c with haltBy := some .bkpt, haltCause := 0x0F, haltAddr := 0 }
      abort s.cur.core s.cur.ctx (.halt w.addr)
    else emitCur [] .null 1) s

/-- HALT (R332): privileged; an exit. -/
def execHalt (f : FmtS) (s : State) : Host.Outcome State Fault Refusal :=
  fireM f.gm [] [] false (fun _ _ => do
    if !s.curCtx.task.sup then raise 0x11 0
    else fireExit [] .null 0) s

end Sys2Proof.Machine
end

