-- ==== Sys2Proof/Machine/MemForms.lean ====
section
/-! DEFINITION. Entering accesses (the Enter step of R193): the checks of R171 and R211, the own watch check (R372),
migrating accesses (R90), and the forms MEM, SYNC, ATOM, SYSM, JOIN, JWAIT, HWAIT, HTEST and RATE up to their Enter. -/

namespace Sys2Proof.Machine

/-! ### Faults of translation -/

/-- A context waits on a record's resolve word (R217): it parks at once. -/
def waitResolve (core ctx : Nat) (home off : Nat) (addr blk : Word) (idx : Nat) : M Unit := do
  let t ← now
  modCtx core ctx fun c => { c with
    wait := some { on := .resolve home off addr blk (BitVec.ofNat 7 idx), idx := idx, start := t, parkAt := t,
                   expired := true } }

/-- TRANS (R211): post a record of kind 1, 2 or 3; the task waits on its resolve word. A busy slot makes the block
execute again after 256 clocks (R216); without a pager area the task is terminated (R390). A slot that has become free is not
free to it while older records of the cluster wait to be posted (DESIGN CHOICE, log 56). -/
def transFault (core ctx kind : Nat) (addr w2 blk : Word) (write : Bool) (idx asid : Nat) : M Unit := do
  let c ← getCtx core ctx
  let t ← now
  countCore core 0x0B ctx
  if ((← getS).pager (core / 8)).isNone then abort core ctx .terminate
  else
    let r : PendRec := { q := recWord asid write idx kind 0x01, w0 := c.task.gtid, w1 := blk, w2 := w2 }
    let pend := (← getCluster (core / 8)).pend
    let posted ← if pend.isEmpty then post (core / 8) r false else pure none
    match posted with
    | none =>
      modCluster (core / 8) fun c => { c with retries := c.retries + 1 }
      abort core ctx (.postRetry blk (t + 256))
    | some (home, off) =>
      abort core ctx .resolve
      waitResolve core ctx home off addr blk idx

/-- The record of a PROT that translation found (R218). Its index, as that of a kind-5 record, is the form's TIDX, though no task
waits on the record (DESIGN CHOICE, log 56). -/
def protRecord (core ctx : Nat) (addr blk : Word) (write : Bool) (idx asid : Nat) : M Unit := do
  let c ← getCtx core ctx
  postOrWait (core / 8) { q := recWord asid write idx 7 0x02, w0 := c.task.gtid, w1 := blk, w2 := addr }

/-- PROT of a translated access (R218): without a pager area the task is terminated (R390). -/
def protFar (core ctx : Nat) (addr : Word) (write : Bool) (idx asid : Nat) : M Unit := do
  let c ← getCtx core ctx
  if ((← getS).pager (core / 8)).isNone then abort core ctx .terminate
  else
    protRecord core ctx addr c.win.addr write idx asid
    raiseTrap core ctx 0x02 addr idx

/-- Record kind 5, then UNCORR (R210). -/
def criticalFault (core ctx : Nat) (addr : Word) (write : Bool) (idx asid : Nat) : M Unit := do
  let c ← getCtx core ctx
  postOrWait (core / 8) { q := recWord asid write idx 5 0x10, w0 := c.task.gtid, w1 := c.win.addr, w2 := addr }
  raiseUncorr core ctx addr

/-! ### Where an access goes -/

/-- What a form asks of its address. -/
structure Ask where
  size : Nat
  align : Nat
  need : Rights
  /-- Atomics also need AT of a FAR page (R211). -/
  atomic : Bool := false
  store : Bool := false
  far : Bool := true
  /-- The window of a CORE address is tested when the form is checked, not only at the home: stores (R171), gathers (R159),
  rate forms (R318). -/
  probe : Bool := false
  deriving DecidableEq, Repr

/-- A place that passed every check. -/
structure Place where
  home : Home
  addr : Nat
  core : Bool := false
  far : Option FarRef := none
  deriving DecidableEq, Repr

/-- No memory key: a CORE access whose window does not admit it overlaps nothing. -/
def noKey : Nat := 2 ^ 80

/-- Steps 2 to 5 of R211 for one page of a FAR access: none when the block has aborted. -/
def locateFar (ea : Word) (va : Nat) (q : Ask) : M (Option Place) := do
  let cur := (← getS).cur
  let c ← getCtx cur.core cur.ctx
  let reg := c.win.snap.core.asid
  let asid := BitVec.ofNat 12 (asidOf reg)
  let part := (← getS).partOf cur.core
  let write := q.store || q.atomic
  match ← translate (cur.core / 8) part asid (s1Of reg) va with
  | .stage1 => transFault cur.core cur.ctx 1 ea ea c.win.addr write cur.idx (asidOf reg); return none
  | .tableFail ia =>
    transFault cur.core cur.ctx 3 ea (BitVec.ofNat 64 ia) c.win.addr write cur.idx (asidOf reg); return none
  | .tablePoison _ => raise 0x12 ea; return none
  | .stage2 => transFault cur.core cur.ctx 2 ea ea c.win.addr write cur.idx (asidOf reg); return none
  | .critical _ => criticalFault cur.core cur.ctx ea write cur.idx (asidOf reg); return none
  | .ok e =>
    let rights := if q.atomic then e.r && e.w && e.at_ else if q.store then e.w else e.r
    if !rights then protFar cur.core cur.ctx ea write cur.idx (asidOf reg); return none
    else match e.st.toNat with
      | 3 => raise 0x12 ea; return none
      | 0 => transFault cur.core cur.ctx 2 ea ea c.win.addr write cur.idx (asidOf reg); return none
      | n =>
        if n == 1 && !q.store then
          transFault cur.core cur.ctx 2 ea ea c.win.addr write cur.idx (asidOf reg); return none
        else
          let pa := e.phys va
          let ref : FarRef := { va := BitVec.ofNat 57 va, asid := asid, s1root := BitVec.ofNat 36 (s1Of reg), part := part,
                                st := e.st, ia := e.ia, big := e.big, iaBig := e.iaBig }
          modCtx cur.core cur.ctx fun c => c.onWin fun w => { w with trans := w.trans ++ [ref] }
          return some { home := .far (farLink pa), addr := farKey pa, far := some ref }

/-- The checks of R171 in their order for bytes ea to ea + size − 1: none when the block has aborted. -/
def locate (ea : Word) (q : Ask) : M (Option Place) := do
  let s ← getS
  let cur := s.cur
  let c ← getCtx cur.core cur.ctx
  let sp := match classify ea q.size with
    | .core id off => (match s.phys (s.partOf cur.core) id with
      | some _ => Sp.core id off
      | none => .bad)
    | .far va => if q.far then .far va else .bad
    | x => x
  match sp with
  | .bad => raise 0x04 ea; return none
  | .loc off =>
    if ea.toNat % q.align != 0 then raise 0x03 ea; return none
    else if !lpuOk c.win.snap.core.lprot cur.ctx off q.size q.need then raise 0x02 ea; return none
    else return some { home := .pool cur.core, addr := poolKey cur.core off }
  | .core id off =>
    if ea.toNat % q.align != 0 then raise 0x03 ea; return none
    else
      let k := (s.phys (s.partOf cur.core) id).getD 0
      let o := windowOffset (s.core k).windows (asidOf c.win.snap.core.asid) off q.size q.need
      if (q.store || q.probe) && o.isNone then raise 0x02 ea; return none
      else return some { home := .pool k, addr := (o.map (poolKey k)).getD noKey, core := true }
  | .far va =>
    if ea.toNat % q.align != 0 then raise 0x03 ea; return none
    else locateFar ea va q

/-! ### The own watch check (R371, R372) -/

/-- The own check examines the accesses of the context's block (R371, R372). -/
def Ctx.examined (c : Ctx) (ctx : Nat) : Bool :=
  let ctl := c.win.snap.core.wpctl
  let cm := ctl.toNat / 256 % 65536
  ctl.getLsbD 4 && (cm == 0 || cm.testBit ctx)

/-- What the next execution of the block at `a` skips, one more thing among it. -/
def Task.skipping (t : Task) (a : Word) (f : Skips → Skips) : Task :=
  { t with skip := f (if t.skip.blk == a then t.skip else { blk := a }) }

/-- The own check of an access made by a form of a context's block: true when the block goes on (R372). -/
def ownWatchAt (core ctx idx : Nat) (ea : Word) (size : Nat) (reads writes : Bool) : M Bool := do
  let s ← getS
  let c ← getCtx core ctx
  let k := c.win.snap.core
  let ctl := k.wpctl
  let on := c.examined ctx && watchType ctl reads writes && !c.win.skip.watch
  match if on then watchHit k.wpaddr k.wpmask ea.toNat size else none with
  | none => return true
  | some a =>
    let at_ := BitVec.ofNat 64 a
    countCore core 0x1C ctx
    let actn := ctl.toNat / 4 % 4
    let actn := if actn == 1 && !(s.partRec core).attached then 3 else actn
    match actn with
    | 0 => return true
    | 3 =>
      notice (core / 8) 0x0E idx (asidOf k.asid) c.task.gtid c.win.addr at_
      return true
    | n =>
      modCtx core ctx fun c => { c with
        haltBy := some (if n == 1 then .watch else .line), haltCause := 0x0E, haltAddr := at_
        task := c.task.skipping c.win.addr fun x => { x with watch := true } }
      abort core ctx (.halt c.win.addr)
      if n == 2 then requestRaise (s.partOf core) .watchpoint c.task.gtid
      return false

/-- The own check of an access of the current form. -/
def ownWatch (ea : Word) (size : Nat) (reads writes : Bool) : M Bool := do
  let cur := (← getS).cur
  ownWatchAt cur.core cur.ctx cur.idx ea size reads writes

/-! ### Migration of an access (R89 to R91) -/

/-- The move is declined (R91). -/
def declines (r : Regs) : Bool :=
  let bytes := (r.v.toList.filter fun v => v.tag != 0).length * 32 + (r.streams.toList.filter (·.isOpen)).length * 8
  let sl := (r.slimit.toNat : Int) - (vget 0 r.g 15).toNat
  bytes > 256 || r.hf || sl < -(2 ^ 23) || sl ≥ 2 ^ 23

/-- HN[78] on an access to another core's address moves the task there; true when the access goes on here. -/
def migrates (ea : Word) (mig : Bool) : M Bool := do
  let s ← getS
  let cur := s.cur
  let c ← getCtx cur.core cur.ctx
  if !mig || c.win.skip.mig then return true
  match classify ea 1 with
  | .core id _ =>
    match s.phys (s.partOf cur.core) id with
    | some k =>
      if k == cur.core then return true
      else if declines c.regs then
        countCore cur.core 0x15 cur.ctx
        return true
      else
        modCtx cur.core cur.ctx fun c => { c with
          task := c.task.skipping c.win.addr fun x => { x with mig := true } }
        abort cur.core cur.ctx (.migrate c.win.addr k)
        return false
    | none => return true
  | _ => return true

/-! ### Making accesses -/

/-- The place of an access in access order (R191). -/
def Access.key (a : Access) : Nat × Nat × Nat × Nat := (a.blk, a.rank, a.lsid, a.part)

def keyLt (a b : Nat × Nat × Nat × Nat) : Bool :=
  a.1 < b.1 || (a.1 == b.1 && (a.2.1 < b.2.1 || (a.2.1 == b.2.1 && (a.2.2.1 < b.2.2.1 ||
    (a.2.2.1 == b.2.2.1 && a.2.2.2 < b.2.2.2)))))

/-- Class of a MEM form (R192). -/
def memClass (f : FmtM) : AccClass := if f.rx then .relaxed else if f.ord then .strong else .plain

/-- A form's place among the non-storing accesses of its block (R191, R235): none for stores, irrevocable forms, forms
without an LSID, and PFILL, which performs no access (R192). Two HTESTs of a block, which carry no LSID and to which R191
and R235 give no order, stand in ascending instruction index (DESIGN CHOICE, log 55). -/
def Inst.place (i : Inst) (idx : Nat) : Option (Nat × Nat) :=
  match decode i.word with
  | some (.htest _) => some (1, idx)
  | some (.pfill _) => none
  | some n => match n.info with
    | some f => if f.mem && !f.store && !f.irr then some (0, i.word.lsid) else none
    | none => none
  | none => none

def placeLt (a b : Nat × Nat) : Bool := a.1 < b.1 || (a.1 == b.1 && a.2 < b.2)

/-- A non-storing form whose access is strong, relaxed, plain (Table 2 of R192). -/
def Inst.accClass (i : Inst) : AccClass :=
  match decode i.word with
  | some (.ldb f) | some (.ldh f) | some (.ldw f) | some (.ldd f) | some (.ldbu f) | some (.ldhu f) | some (.ldwu f)
  | some (.vld f) | some (.vldg f) => memClass f
  | some (.htest _) | some (.pgstat _) | some (.rsread _) | some (.rsstat _) => .plain
  | _ => .strong

/-- The forms of the block that an access is earlier than and that may depend on it: those that depend on an access at
its place or a later one. -/
def Ctx.beyond (c : Ctx) (a : Access) : List Nat :=
  reachFrom c.win.insts 0 (c.win.insts.zipIdx.filterMap fun x => match x.1.place x.2 with
    | some q => if placeLt q (a.rank, a.lsid) then none else some x.2
    | none => none)

/-- The forms earlier in access order than an access of the executing block that have not entered and do not depend on an
access at its place or a later one. -/
def Ctx.before (c : Ctx) (a : Access) : List Inst :=
  if a.blk != c.blk || a.rank ≥ 2 then []
  else (c.win.insts.zipIdx.filter fun x => match x.1.place x.2 with
    | some q => placeLt q (a.rank, a.lsid) && !x.1.resolved && !(c.beyond a).contains x.2 &&
        !c.accs.any fun b => b.blk == c.blk && b.idx == x.2
    | none => false).map (·.1)

/-- Insert in access order. -/
def insertAcc (a : Access) : List Access → List Access
  | [] => [a]
  | b :: t => if keyLt a.key b.key then a :: b :: t else b :: insertAcc a t

/-- The access as one of a context's executing block. -/
def Ctx.stamp (c : Ctx) (ctx : Nat) (a : Access) : Access :=
  { a with blk := c.blk, baddr := c.win.addr, asid := BitVec.ofNat 12 (asidOf c.win.snap.core.asid), seen := c.examined ctx }

def addAccess (core ctx : Nat) (a : Access) : M Unit :=
  modCtx core ctx fun c => { c with accs := insertAcc (c.stamp ctx a) c.accs }

/-- An access at a place. -/
def mkAccess (idx rank lsid part : Nat) (cls : AccClass) (op : MemOp) (ea : Word) (size : Nat) (p : Place) : Access :=
  { rank := rank, lsid := lsid, part := part, idx := idx, cls := cls, op := op, ea := ea, size := size,
    home := p.home, addr := p.addr, core := p.core, far := p.far }

/-- Byte offset: Z, or Z[19:0] for VLD and VLDG (R28). -/
def memOffset (f : FmtM) (xf : Bool) : Int := if xf then sextNat f.z.toNat 20 else zImm f.z

/-- A store is resolved once it is checked (R69): fire without result. -/
def storeEntered : M Unit := emitCur [] .null 1

/-- A scalar load (R172). -/
def loadForm (f : FmtM) (n : Nat) (s : State) : Host.Outcome State Fault Refusal :=
  fireM f.gm (targetList f.t) [.a] false (fun i _ => do
    let a := ea (i.tok .a).word (memOffset f false)
    match classify a n with
    | .bad => raise 0x04 a
    | _ =>
      if ← migrates a f.mig then
        match ← locate a { size := n, align := n, need := { r := true } } with
        | none => pure ()
        | some p =>
          if ← ownWatch a n true false then
            let lat := if p.home == .pool s.cur.core && !p.core then s.clk.toNat + 32 else 0
            addAccess s.cur.core s.cur.ctx
              { mkAccess s.cur.idx 0 f.lsid.toNat 0 (memClass f) .load a n p with due := lat }) s

/-- A scalar store (R172): checked now, written at drain (R174). -/
def storeForm (f : FmtM) (n : Nat) (s : State) : Host.Outcome State Fault Refusal :=
  fireM f.gm [] [.a, .b] false (fun i _ => do
    let a := ea (i.tok .a).word (memOffset f false)
    match classify a n with
    | .bad => raise 0x04 a
    | _ =>
      if ← migrates a f.mig then
        match ← locate a { size := n, align := n, need := { w := true }, store := true } with
        | none => pure ()
        | some p =>
          if ← ownWatch a n false true then
            addAccess s.cur.core s.cur.ctx (mkAccess s.cur.idx 3 f.lsid.toNat 0 (memClass f)
              (.store ((bytesOf n (i.tok .b).word.toNat).map some)) a n p)
            storeEntered) s

/-- LDB (R172). -/
def execLdb (f : FmtM) (s : State) : Host.Outcome State Fault Refusal := loadForm f 1 s
/-- LDH (R172). -/
def execLdh (f : FmtM) (s : State) : Host.Outcome State Fault Refusal := loadForm f 2 s
/-- LDW (R172). -/
def execLdw (f : FmtM) (s : State) : Host.Outcome State Fault Refusal := loadForm f 4 s
/-- LDD (R172). -/
def execLdd (f : FmtM) (s : State) : Host.Outcome State Fault Refusal := loadForm f 8 s
/-- LDBU (R172). -/
def execLdbu (f : FmtM) (s : State) : Host.Outcome State Fault Refusal := loadForm f 1 s
/-- LDHU (R172). -/
def execLdhu (f : FmtM) (s : State) : Host.Outcome State Fault Refusal := loadForm f 2 s
/-- LDWU (R172). -/
def execLdwu (f : FmtM) (s : State) : Host.Outcome State Fault Refusal := loadForm f 4 s
/-- STB (R172). -/
def execStb (f : FmtM) (s : State) : Host.Outcome State Fault Refusal := storeForm f 1 s
/-- STH (R172). -/
def execSth (f : FmtM) (s : State) : Host.Outcome State Fault Refusal := storeForm f 2 s
/-- STW (R172). -/
def execStw (f : FmtM) (s : State) : Host.Outcome State Fault Refusal := storeForm f 4 s
/-- STD (R172). -/
def execStd (f : FmtM) (s : State) : Host.Outcome State Fault Refusal := storeForm f 8 s

/-! ### Vector accesses (R157 to R160) -/

/-- How 32 bytes at an address split: one part, or two at the 64-byte boundary of the home's block (R160) or at the
page boundary of a FAR address. -/
def splitAt64 (at_ : Nat) : List (Nat × Nat) :=
  if at_ % 64 ≤ 32 then [(0, 32)] else [(0, 64 - at_ % 64), (64 - at_ % 64, 32 - (64 - at_ % 64))]

/-- Check a 32-byte access as a whole and give its parts (R157, R158, R211): for FAR, each page once, lower first. Bytes
past the end of FAR space fault with SPACE at the second part, once the first page has passed: no rule gives that end for
an access of 32 bytes (DESIGN CHOICE, log 52). -/
def locateVec (a : Word) (q : Ask) : M (Option (List (Nat × Nat × Place))) := do
  match classify a 32 with
  | .far va =>
    if va % 65536 + 32 ≤ 65536 then
      match ← locate a q with
      | none => return none
      | some p => return some ((splitAt64 va).map fun x =>
          (x.1, x.2, { p with addr := p.addr + x.1, home := .far (farLink (p.addr + x.1 - farKey 0)) }))
    else
      let n := 65536 - va % 65536
      match ← locate a { q with size := n } with
      | none => return none
      | some p =>
        let b := ea a n
        match ← locate b { q with size := 32 - n, align := 1 } with
        | none => return none
        | some p' => return some [(0, n, p), (n, 32 - n, p')]
  | _ =>
    match ← locate a q with
    | none => return none
    | some p =>
      let off := if p.addr == noKey then a.toNat % 2 ^ 22 else p.addr % poolStride
      return some ((splitAt64 off).map fun x => (x.1, x.2, { p with addr := if p.addr == noKey then noKey else p.addr + x.1 }))

/-- VLD (R157). -/
def execVld (f : FmtM) (s : State) : Host.Outcome State Fault Refusal :=
  fireM f.gm (targetList f.t) [.a] false (fun i _ => do
    let a := ea (i.tok .a).word (memOffset f true)
    let w := tagBits (f.z.toNat / 2 ^ 20) / 8
    match classify a 32 with
    | .bad => raise 0x04 a
    | _ =>
      if ← migrates a f.mig then
        match ← locateVec a { size := 32, align := w, need := { r := true } } with
        | none => pure ()
        | some parts =>
          if ← ownWatch a 32 true false then
            for x in parts do
              let lat := if x.2.2.home == .pool s.cur.core && !x.2.2.core then s.clk.toNat + 32 else 0
              addAccess s.cur.core s.cur.ctx
                { mkAccess s.cur.idx 0 f.lsid.toNat x.1 (memClass f) .load (ea a x.1) x.2.1 x.2.2 with
                  due := lat, whole := if x.2.2.core then some (a, 32) else none }) s

/-- The bytes of a vector token a store writes: those of lanes that are not null (R158). -/
def vecBytes (t : Token) : List (Option Byte) :=
  (List.range 32).map fun j => if nullByte t j then none else some (BitVec.ofNat 8 (t.vbits.toNat / 2 ^ (8 * j)))

/-- VST (R158). -/
def execVst (f : FmtM) (s : State) : Host.Outcome State Fault Refusal :=
  fireM f.gm [] [.a, .b] false (fun i _ => do
    let a := ea (i.tok .a).word (memOffset f false)
    let t := i.tok .b
    match classify a 32 with
    | .bad => raise 0x04 a
    | _ =>
      if ← migrates a f.mig then
        match ← locateVec a { size := 32, align := laneW t.tag / 8, need := { w := true }, store := true } with
        | none => pure ()
        | some parts =>
          if ← ownWatch a 32 false true then
            for x in parts do
              addAccess s.cur.core s.cur.ctx
                { mkAccess s.cur.idx 3 f.lsid.toNat x.1 (memClass f)
                    (.store (((vecBytes t).drop x.1).take x.2.1)) (ea a x.1) x.2.1 x.2.2 with
                  whole := if x.2.2.core then some (a, 32) else none }
            storeEntered) s

/-- Offset lane i as a signed number. -/
def offLane (t : Token) (i : Nat) : Int := sextNat (lane t.vbits (laneW t.tag) i) (laneW t.tag)

/-- Check and make the accesses of a gather or scatter, lane by lane (R159); false when the block has aborted. -/
def elements (f : FmtM) (rank : Nat) (base : Word) (n w : Nat) (offs : Token) (skip : Nat → Bool) (q : Ask)
    (op : Nat → MemOp) (first : Word) : List Nat → M Bool
  | [] => return true
  | i :: t => do
    if n ≤ i || skip i then elements f rank base n w offs skip q op first t
    else
      let cur := (← getS).cur
      let a := ea base (offLane offs i)
      if bits a.toNat 63 60 != bits first.toNat 63 60 then raise 0x04 a; return false
      else match ← locate a q with
        | none => return false
        | some p =>
          if ← ownWatch a w (!q.store) q.store then
            addAccess cur.core cur.ctx (mkAccess cur.idx rank f.lsid.toNat i (memClass f) (op i) a w p)
            elements f rank base n w offs skip q op first t
          else return false

/-- The address by which HN[78] acts on a gather or scatter whose elements name different cores: that of the first element
not skipped, where R26, R89 and R90 name none (DESIGN CHOICE, log 55). -/
def firstElement (base : Word) (n : Nat) (offs : Token) (skip : Nat → Bool) : Option Word :=
  ((List.range n).find? fun i => !skip i).map fun i => ea base (offLane offs i)

/-- The tag of an offset operand is I32 or I64 (R146). -/
def offsetTag (t : Token) : Bool := allNull t || t.tag == 3 || t.tag == 4

/-- A gather whose every element is skipped makes no access, so that an .acq one orders nothing, and emits its null lanes
after one slot: R160 and R193 speak of its accesses and give none for it (DESIGN CHOICE, log 55). -/
def gatherNone (f : FmtM) (tag : BitVec 4) : M Unit := emitCur (targetList f.t) (vecTok tag fun _ => none) 1

/-- VLDG (R159). The space that every element must share is the one of the address that offset lane 0 gives; of a null
lane 0 its data bits are taken, to which no rule gives a value (DESIGN CHOICE, log 52). -/
def execVldg (f : FmtM) (s : State) : Host.Outcome State Fault Refusal :=
  fireM f.gm (targetList f.t) [.a, .b] false (fun i _ => do
    let tag := BitVec.ofNat 4 (f.z.toNat / 2 ^ 20)
    let offs := i.tok .b
    if !offsetTag offs then raise 0x05 0
    else
      let base := ea (i.tok .a).word (memOffset f true)
      let n := min (laneN tag) (laneN offs.tag)
      let skip := fun k => nullAt offs k
      let w := laneW tag / 8
      match firstElement base n offs skip with
      | none => gatherNone f tag
      | some a =>
        if ← migrates a f.mig then
          let q : Ask := { size := w, align := w, need := { r := true }, probe := true }
          let first := ea base (offLane offs 0)
          let _ ← elements f 0 base n w offs skip q (fun _ => .load) first (List.range n)) s

/-- The drain entry of a store that writes nothing (R160). -/
def emptyStore (core : Nat) : Access := { rank := 3, op := .store [], size := 0, addr := noKey, home := .pool core }

/-- VSTS (R159, R160): one drain entry, be every element skipped. The space is that of offset lane 0 as for VLDG
(log 52). -/
def execVsts (f : FmtM) (s : State) : Host.Outcome State Fault Refusal :=
  fireM f.gm [] [.a, .b, .c] false (fun i _ => do
    let t := i.tok .b
    let offs := i.tok .c
    if !offsetTag offs then raise 0x05 0
    else
      let base := ea (i.tok .a).word (memOffset f false)
      let n := min (laneN t.tag) (laneN offs.tag)
      let skip := fun k => nullAt offs k || nullAt t k
      let w := laneW t.tag / 8
      match firstElement base n offs skip with
      | none =>
        addAccess s.cur.core s.cur.ctx { emptyStore s.cur.core with idx := s.cur.idx, lsid := f.lsid.toNat, cls := memClass f }
        storeEntered
      | some a =>
        if ← migrates a f.mig then
          let q : Ask := { size := w, align := w, need := { w := true }, store := true }
          let first := ea base (offLane offs 0)
          if ← elements f 3 base n w offs skip q
              (fun k => .store ((bytesOf w (lane t.vbits (laneW t.tag) k)).map some)) first (List.range n) then
            storeEntered) s

/-! ### Synchronising forms, atomics, JOIN, JWAIT, HWAIT, HTEST (R176, R180, R83, R84, R234, R235) -/

/-- A form on one aligned word. -/
def wordForm (gm : Guard) (ts : List Target) (lsid rank : Nat) (cls : AccClass) (slots : List Slot) (off : Int) (q : Ask)
    (irr reads writes : Bool) (op : Inst → Window → MemOp) (s : State) : Host.Outcome State Fault Refusal :=
  fireM gm ts slots irr (fun i w => do
    let a := ea (i.tok .a).word off
    match ← locate a q with
    | none => pure ()
    | some p =>
      if ← ownWatch a 8 reads writes then
        addAccess s.cur.core s.cur.ctx (mkAccess s.cur.idx rank lsid 0 cls (op i w) a 8 p)) s

def syncForm (f : FmtM) (slots : List Slot) (need : Rights) (irr reads writes : Bool) (op : Inst → MemOp) (s : State) :
    Host.Outcome State Fault Refusal :=
  wordForm f.gm (targetList f.t) f.lsid.toNat (if irr then 2 else 0) .strong slots (memOffset f false)
    { size := 8, align := 8, need := need, far := false } irr reads writes (fun i _ => op i) s

/-- LDF (R176). -/
def execLdf (f : FmtM) (s : State) : Host.Outcome State Fault Refusal :=
  syncForm f [.a] { r := true, s := true } false true false (fun _ => .ldf) s
/-- LDE (R176). -/
def execLde (f : FmtM) (s : State) : Host.Outcome State Fault Refusal :=
  syncForm f [.a] { r := true, w := true, s := true } true true true (fun _ => .lde) s
/-- STF (R176). -/
def execStf (f : FmtM) (s : State) : Host.Outcome State Fault Refusal :=
  syncForm f [.a, .b] { w := true, s := true } true true true (fun i => .stf (i.tok .b).word) s
/-- STS (R176). -/
def execSts (f : FmtM) (s : State) : Host.Outcome State Fault Refusal :=
  syncForm f [.a, .b] { w := true, s := true } true true true (fun i => .sts (i.tok .b).word) s
/-- FESET (R176). -/
def execFeset (f : FmtM) (s : State) : Host.Outcome State Fault Refusal :=
  syncForm f [.a] { w := true, s := true } true false true (fun _ => .feset) s
/-- FECLR (R176). -/
def execFeclr (f : FmtM) (s : State) : Host.Outcome State Fault Refusal :=
  syncForm f [.a] { w := true, s := true } true false true (fun _ => .feclr) s
/-- FEGET (R176). -/
def execFeget (f : FmtM) (s : State) : Host.Outcome State Fault Refusal :=
  syncForm f [.a] { r := true, s := true } false true false (fun _ => .feget) s
/-- FENCE (R178, R197): a strong place in access order, without an access. -/
def execFence (f : FmtM) (s : State) : Host.Outcome State Fault Refusal :=
  fireM f.gm (targetList f.t) [] false (fun _ _ =>
    addAccess s.cur.core s.cur.ctx
      { idx := s.cur.idx, lsid := f.lsid.toNat, cls := .strong, op := .fence, size := 0, addr := noKey,
        home := .pool s.cur.core }) s

def atomForm (f : FmtM) (slots : List Slot) (op : AtomOp) (s : State) : Host.Outcome State Fault Refusal :=
  wordForm f.gm (targetList f.t) f.lsid.toNat 2 .strong slots (memOffset f false)
    { size := 8, align := 8, need := { r := true, w := true, s := true }, atomic := true } true true true
    (fun i w => .atom op (i.tok .b).word (i.tok .c).word (w.snap.regs.fmode.setWidth 2)) s

/-- AADD (R180). -/
def execAadd (f : FmtM) (s : State) : Host.Outcome State Fault Refusal := atomForm f [.a, .b] .add s
/-- AMIN (R180). -/
def execAmin (f : FmtM) (s : State) : Host.Outcome State Fault Refusal := atomForm f [.a, .b] .min s
/-- AMAX (R180). -/
def execAmax (f : FmtM) (s : State) : Host.Outcome State Fault Refusal := atomForm f [.a, .b] .max s
/-- AMINU (R180). -/
def execAminu (f : FmtM) (s : State) : Host.Outcome State Fault Refusal := atomForm f [.a, .b] .minu s
/-- AMAXU (R180). -/
def execAmaxu (f : FmtM) (s : State) : Host.Outcome State Fault Refusal := atomForm f [.a, .b] .maxu s
/-- AAND (R180). -/
def execAand (f : FmtM) (s : State) : Host.Outcome State Fault Refusal := atomForm f [.a, .b] .and s
/-- AOR (R180). -/
def execAor (f : FmtM) (s : State) : Host.Outcome State Fault Refusal := atomForm f [.a, .b] .or s
/-- AXOR (R180). -/
def execAxor (f : FmtM) (s : State) : Host.Outcome State Fault Refusal := atomForm f [.a, .b] .xor s
/-- AXCH (R180). -/
def execAxch (f : FmtM) (s : State) : Host.Outcome State Fault Refusal := atomForm f [.a, .b] .xch s
/-- ACAS (R180). -/
def execAcas (f : FmtM) (s : State) : Host.Outcome State Fault Refusal := atomForm f [.a, .b, .c] .cas s
/-- AFADD (R180). -/
def execAfadd (f : FmtM) (s : State) : Host.Outcome State Fault Refusal := atomForm f [.a, .b] .fadd s

/-- A format E form on one pool word. -/
def poolWordForm (f : FmtE) (need : Rights) (irr reads writes : Bool) (op : MemOp) (s : State) :
    Host.Outcome State Fault Refusal :=
  wordForm f.gm (targetList f.t) f.lsid.toNat (if irr then 2 else 0) .strong [.a] 0
    { size := 8, align := 8, need := need, far := false } irr reads writes (fun _ _ => op) s

/-- JOIN (R83). -/
def execJoin (f : FmtE) (s : State) : Host.Outcome State Fault Refusal :=
  poolWordForm f { r := true, w := true, s := true } true true true .join s
/-- JWAIT (R84). -/
def execJwait (f : FmtE) (s : State) : Host.Outcome State Fault Refusal :=
  poolWordForm f { r := true, s := true } false true false .jwait s
/-- HWAIT (R234). -/
def execHwait (f : FmtE) (s : State) : Host.Outcome State Fault Refusal :=
  poolWordForm f { r := true, s := true } false true false .hwait s
/-- HTEST (R235): plain, after the non-storing accesses of its block in access order. -/
def execHtest (f : FmtS) (s : State) : Host.Outcome State Fault Refusal :=
  wordForm f.gm (targetList f.t) s.cur.idx 1 .plain [.a] 0
    { size := 8, align := 8, need := { r := true }, far := false } false true false (fun _ _ => .htest) s

/-! ### Rate sets (R318) -/

/-- The checks of R318 that come before the home's. RSPUT faults with FMTX on a slot C that is not tagged F32, all-null or not:
R318 states no exemption, and the form has no vector result (DESIGN CHOICE beside R123, log 56). -/
def rateForm (f : FmtE) (slots : List Slot) (irr : Bool) (need : Rights) (op : Inst → RateOp) (s : State) :
    Host.Outcome State Fault Refusal :=
  fireM f.gm (targetList f.t) slots irr (fun i _ => do
    let d := (i.tok .a).word
    let q : Ask := { size := 64, align := 64, need := need, far := false, probe := true }
    match ← locate d q with
    | none => pure ()
    | some p =>
      let bad := match op i with
        | .put _ _ _ => (i.tok .c).tag != 6
        | _ => false
      if bad then raise 0x05 0
      else if ← ownWatch d 64 true irr then
        let lat := if p.core then 0 else s.clk.toNat + 48
        addAccess s.cur.core s.cur.ctx { mkAccess s.cur.idx (if irr then 2 else 0) f.lsid.toNat 0
          (if irr then .strong else .plain) (.rate (op i)) d 64 p with due := lat }) s

def rateAll : Rights := { r := true, w := true, s := true }

/-- RSINIT (R320). -/
def execRsinit (f : FmtE) (s : State) : Host.Outcome State Fault Refusal := rateForm f [.a] true rateAll (fun _ => .init) s
/-- RSBEGIN (R321). -/
def execRsbegin (f : FmtE) (s : State) : Host.Outcome State Fault Refusal := rateForm f [.a] true rateAll (fun _ => .begin) s
/-- RSNEXT (R322). -/
def execRsnext (f : FmtE) (s : State) : Host.Outcome State Fault Refusal := rateForm f [.a] true rateAll (fun _ => .next) s
/-- RSREAD (R324). -/
def execRsread (f : FmtE) (s : State) : Host.Outcome State Fault Refusal :=
  rateForm f [.a, .b] false { r := true } (fun i => .read (i.tok .b).word) s
/-- RSPUT (R323). -/
def execRsput (f : FmtE) (s : State) : Host.Outcome State Fault Refusal :=
  rateForm f [.a, .b, .c] true rateAll (fun i =>
    .put (i.tok .b).word (i.tok .c).vbits (maskOf 8 (nullAt (i.tok .c)))) s
/-- RSSTAT (R325). -/
def execRsstat (f : FmtE) (s : State) : Host.Outcome State Fault Refusal :=
  rateForm f [.a] false { r := true } (fun _ => .stat) s

end Sys2Proof.Machine
end

