-- ==== Sys2Proof/Machine/Orrery.lean ====
section
/-! DEFINITION. The steps of the Orrery (R190 to R202): sending, arriving, performing, deferring, replaying,
acknowledging, and the arrival of replies (R93); forwarding (R173), synchronising actions (R176), atomics (R180), the
home watch check (R373). -/

namespace Sys2Proof.Machine

/-! ### Accesses of a context -/

def freeSlotOf (core pslot : Nat) : M Unit :=
  modCore core fun k => { k with pslots := k.pslots.filter fun x => x.1 != pslot }

def modAcc (core ctx : Nat) (k : Nat × Nat × Nat × Nat) (f : Access → Access) : M Unit :=
  modCtx core ctx fun c => { c with accs := c.accs.map fun a => if a.key == k then f a else a }

def dropAcc (core ctx : Nat) (k : Nat × Nat × Nat × Nat) : M Unit :=
  modCtx core ctx fun c => { c with accs := c.accs.filter fun a => a.key != k }

def Access.isStore (a : Access) : Bool := match a.op with
  | .store _ => true
  | _ => false

/-- Sent and not acknowledged, or not sent at all. -/
def Access.unacked (a : Access) : Bool := a.st != .acked

/-- Two accesses share a byte. -/
def Access.overlaps (a b : Access) : Bool := a.addr != noKey && a.addr < b.addr + b.size && b.addr < a.addr + a.size

/-- A non-relaxed access is held while a non-relaxed form earlier in access order has not entered, unless that form may
depend on it. DEDUCED (log 13): otherwise "the earliest unsent access" would depend on the order of issue and R195 would
fail. A strong access is held for relaxed forms too; a plain one is not, for neither direction is ordered (R196). -/
def Ctx.held (c : Ctx) (a : Access) : Bool := (c.before a).any fun i => a.cls == .strong || i.accClass != .relaxed

/-- A relaxed access follows earlier strong accesses, those that have not entered among them (R196). -/
def Ctx.heldRelaxed (c : Ctx) (a : Access) : Bool := (c.before a).any fun i => i.accClass == .strong

/-- A load of a later place has been sent ahead of this access and touches its bytes: it should have followed it (R193,
R196). -/
def Ctx.overtaken (c : Ctx) (a : Access) : Bool :=
  a.blk == c.blk && a.rank < 2 && c.win.ahead.any fun b =>
    keyLt a.key b.key && b.overlaps a && !(c.beyond b).contains a.idx

/-! ### Forwarding (R173) -/

/-- The memory-class forms of the block with LSID at or above n. -/
def Window.memFrom (w : Window) (n : Nat) : List Nat :=
  w.insts.zipIdx.filterMap fun x => match x.1.word.info with
    | some f => if f.mem && n ≤ x.1.word.lsid then some x.2 else none
    | none => none

/-- Candidate stores for a load with this LSID. -/
def Window.candidates (w : Window) (lsid : Nat) : List Nat :=
  let r := reachFrom w.insts 0 (w.memFrom lsid)
  w.insts.zipIdx.filterMap fun x => match x.1.word.info with
    | some f => if f.store && f.mem && x.1.word.lsid < lsid && !r.contains x.2 then some x.2 else none
    | none => none

/-- Every candidate has fired and resolved. -/
def Window.candidatesDone (w : Window) (lsid : Nat) : Bool :=
  (w.candidates lsid).all fun j => ((w.insts[j]?).map (·.resolved)).getD true

/-- The byte a store access writes at a memory key. -/
def Access.byteAt (a : Access) (k : Nat) : Option Byte :=
  match a.op with
  | .store d => if a.addr ≤ k then (d[k - a.addr]?).join else none
  | _ => none

/-- The bytes a load takes from its block's stores: the highest LSID below its own that wrote the byte; accesses stand
in LSID order, so the last that matches. -/
def Ctx.forwarded (c : Ctx) (a : Access) : List (Option Byte) :=
  let cand := c.win.candidates a.lsid
  let st := c.accs.filter fun b => b.blk == c.blk && b.rank == 3 && cand.contains b.idx
  (List.range a.size).map fun i => if a.addr == noKey then none else
    st.foldl (fun acc b => match b.byteAt (a.addr + i) with
      | some v => some v
      | none => acc) none

/-! ### Results of loads -/

/-- The token of a load all of whose parts have their bytes (R157, R159, R172). -/
def loadToken (word : Code) (parts : List Access) : Token :=
  let bs := parts.flatMap fun a => a.got.getD []
  let n := ofBytes bs
  match decode word with
  | some (.ldb _) => .scalar (toWord (sextNat n 8))
  | some (.ldh _) => .scalar (toWord (sextNat n 16))
  | some (.ldw _) => .scalar (toWord (sextNat n 32))
  | some (.vld f) => .vector (BitVec.ofNat 256 n) (BitVec.ofNat 4 (f.z.toNat / 2 ^ 20)) 0
  | some (.vldg f) =>
    vecTok (BitVec.ofNat 4 (f.z.toNat / 2 ^ 20)) fun i =>
      (parts.find? fun a => a.part == i).map fun a => ofBytes (a.got.getD [])
  | _ => .scalar (BitVec.ofNat 64 n)

/-- Overlay forwarded bytes on those read. -/
def overlay : List (Option Byte) → List Byte → List Byte
  | f :: fs, b :: bs => f.getD b :: overlay fs bs
  | _, bs => bs

/-- A part of a load has its bytes: when every part has, the form emits. -/
def gotBytes (core ctx : Nat) (a : Access) (bs : List Byte) : M Unit := do
  modAcc core ctx a.key fun x => { x with got := some (overlay x.fwd bs), st := .acked, inPool := false }
  let c ← getCtx core ctx
  let parts := c.accs.filter fun b => b.blk == a.blk && b.idx == a.idx
  if parts.all fun b => b.got.isSome then
    match c.win.insts[a.idx]? with
    | some i => emitDue core ctx a.idx (loadToken i.word parts) (max a.due (← now))
    | none => pure ()
    modCtx core ctx fun c => { c with accs := c.accs.filter fun b => !(b.blk == a.blk && b.idx == a.idx) }

/-! ### What a drained context goes on to -/

/-- A task as it travels (R91): v registers with tag NONE and closed streams as 0. -/
def packTask (c : Ctx) (core ctx cont : Nat) : Packed :=
  { cont := BitVec.ofNat 64 cont
    regs := { c.regs with
      v := c.regs.v.map fun v => if v.tag == 0 then {} else v
      streams := c.regs.streams.map fun s => if s.isOpen then s else {} }
    task := c.task, sl := (c.regs.slimit - vget 0 c.regs.g 15).setWidth 24,
    src := core, srcCtx := ctx, srcGen := c.gen }

/-- The restore of R331 from the save area at TSAVE as it now stands. -/
def restoreFrom (core ctx : Nat) (z : Bool) : M Unit := do
  let c ← getCtx core ctx
  let bs ← agentRead (core / 8) core c.regs.tsave.toNat 576 (← ctxAgent core ctx)
  let t ← now
  let a := if z then fieldWord bs 0 else c.regs.tblk
  modCtx core ctx fun c => { c with regs := { restoreRegs c.regs bs with hf := false }, phase := .fetch a t
                                    task := { c.task with sigRetry := c.task.sigHeld, sigHeld := none } }

/-- Go on where only outstanding accesses were waited for: a parking context enters PARKED (R75), a migrating one is
packed (R198), an RFE restores (R331). -/
def advance (core ctx : Nat) : M Unit := do
  let c ← getCtx core ctx
  match c.phase with
  | .parkDrain p =>
    if c.accs.isEmpty then
      let t ← now
      modCtx core ctx fun c => { c with status := .parked, phase := .parkWrite p, busy := t + 16 * 8 }
  | .migDrain a k =>
    if c.lost.isSome then modCtx core ctx fun c => { c with phase := .fetch a 0 }
    else if c.accs.isEmpty then
      modNet fun n => { n with migs := n.migs ++ [(k, packTask c core ctx a.toNat)] }
      modCtx core ctx fun c => { c with phase := .migWait a k }
  | .rfe z => if !c.storesOut then restoreFrom core ctx z
  | _ => pure ()

/-- Abort effects that may have been waiting on the last outstanding access. -/
def goOn (core ctx : Nat) : M Unit := do settle core ctx; advance core ctx

/-! ### Send -/

/-- Count of a send (Table 3 of R367). -/
def countSend (core ctx : Nat) (a : Access) : M Unit :=
  match a.home with
  | .far _ => countCore core 0x1B ctx
  | .pool _ => if a.core then countCore core 0x1A ctx else pure ()

/-- The pool of the core's own accesses. -/
def Req.own (r : Req) : Bool := r.eng.isNone && !r.acc.core && r.acc.home == .pool r.core

/-- Requesters at the port of a pool beside its core (R18): 0 TME, 1 DDE, 2 copy engine of the cluster, 3 NI, through
which the requests of every other cluster come. -/
def Req.agent (r : Req) (k : Nat) : Nat :=
  match r.eng with
  | some e => if e.cl == k / 8 then e.engine else 3
  | none => 3

/-- Order among requests that have arrived in the same clock (R18, R179, R193): at a pool the core's own access, then the
others in turn after the one served last; at a far bank by ascending source cluster, the copy engine, TME, DDE and NI of
one cluster in this order (log 41). -/
def arrivalRank (last : Nat) (r : Req) : Nat :=
  match r.acc.home with
  | .pool k => if r.own then 0 else 1 + (r.agent k + 3 - last) % 4
  | .far _ => match r.eng with
    | some e => 4 * e.cl + (e.engine + 1) % 3
    | none => 4 * (r.core / 8) + 3

/-- Who was served last at a home. -/
def State.servedLast (s : State) (h : Home) : Nat :=
  match h with
  | .pool k => (s.core k).portLast
  | .far _ => 0

/-- A request that an action on a pool's port leaves alone: it touches none of its bytes (R319). -/
def Req.apart (r : Req) (k : Nat) (h : PortHold) : Bool :=
  let off := r.acc.addr - poolKey k 0
  !h.touched.any fun x => off < x.1 + x.2 && x.1 < off + r.acc.size

/-- The port does not serve a request in this clock: it has served one, or an action holds it, against which only the
core's own accesses to other bytes go ahead (R18, R319). -/
def State.portShut (s : State) (h : Home) (r : Req) : Bool :=
  match h with
  | .pool k =>
    let c := s.core k
    c.portAt == some s.clk.toNat || (s.clk.toNat < c.hold.till && !(r.own && r.apart k c.hold))
  | .far _ => false

/-- The head of a home's arrival queue: at a pool an access of its own core, which goes before whatever waits there (R18);
else, among those that arrived in its first clock, the lowest in rank. -/
def State.arrived (s : State) (h : Home) : Option (Home × Req) :=
  let q := s.net.homes.filter (·.1 == h)
  let mine := q.filter fun x => x.2.own
  let q := if mine.isEmpty then q else mine
  let rank := fun (x : Home × Req) => arrivalRank (s.servedLast h) x.2
  q.foldl (fun best x => match best with
    | none => some x
    | some y => if x.2.at_ == y.2.at_ && rank x < rank y then some x else some y) none

/-- Put an access on its way: a LOCAL access reaches its pool port directly, any other goes into its channel (R190). From
then on the commit point can no longer be taken back (R72). -/
def dispatch (core ctx : Nat) (a : Access) : M Unit := do
  let s ← getS
  let c := s.ctx core ctx
  let t ← now
  let r : Req := { core := core, ctx := ctx, gen := c.gen, gtid := c.task.gtid, asid := a.asid,
                   part := s.partOf core, acc := a, at_ := t }
  countSend core ctx a
  modAcc core ctx a.key fun x => { x with st := .sent, fwd := a.fwd }
  if a.rank == 2 && a.op != .desc then modCtx core ctx fun c => c.onWin fun w => { w with committed := true }
  if a.home == .pool core && !a.core then modNet fun n => { n with homes := n.homes ++ [(a.home, r)] }
  else modNet fun n => { n with channels := n.channels ++ [(.ni core, a.home, { r with queued := true })] }

/-- PGSTAT's value (Table 9 of R221); none when a critical leaf fails its double read (R210). -/
def pgstatValue (cl part : Nat) (asid : BitVec 12) (s1root va : Nat) : M (Option Word) := do
  match ← walk cl part asid s1root va with
  | .ok e =>
    let b := fun (x : Bool) (n : Nat) => if x then 2 ^ n else 0
    return some <| BitVec.ofNat 64 (2 ^ 9 + 2 ^ 8 + b e.c 7 + b e.at_ 6 + b e.x 5 + b e.w 4 + b e.r 3 + b e.big 2 + e.st.toNat)
  | .stage2 => return some 0x100
  | .critical _ => return none
  | _ => return some 0

/-- The access with this key is still to be performed. -/
def Ctx.owes (c : Ctx) (gen : BitVec 8) (k : Nat × Nat × Nat × Nat) : Bool :=
  c.gen == gen && c.accs.any fun a => a.key == k && a.st != .acked

/-- Some request on its way is of this kind. -/
def Net.anyReq (n : Net) (p : Req → Bool) : Bool := n.channels.any (fun x => p x.2.2) || n.homes.any fun x => p x.2

/-- An engine's request with this number is still to be performed. -/
def Net.owes (n : Net) (serial : Nat) : Bool := n.anyReq fun r => r.eng.isSome && r.acc.blk == serial

/-- An access that an invalidation waits for is still to be performed (R223). -/
def State.owed (s : State) (x : AccRef) : Bool :=
  if x.ctx < 16 then (s.ctx x.core x.ctx).owes x.gen x.key else s.net.owes x.key.1

/-- Send one access: a load with every byte forwarded, FENCE, PGSTAT and a store that writes nothing end here. -/
def sendAcc (core ctx : Nat) (a : Access) : M Unit := do
  match a.op with
  | .load =>
    let c ← getCtx core ctx
    let f := if a.rank == 0 then c.forwarded a else []
    if f.all (·.isSome) && !f.isEmpty then
      modAcc core ctx a.key fun x => { x with fwd := f }
      gotBytes core ctx a (List.replicate a.size 0)
    else dispatch core ctx { a with fwd := f }
  | .fence =>
    dropAcc core ctx a.key
    emitDue core ctx a.idx (.scalar 0) (← now)
  | .pgstat =>
    let s ← getS
    let reg := (s.ctx core ctx).win.snap.core.asid
    match ← pgstatValue (core / 8) (s.partOf core) (BitVec.ofNat 12 (asidOf reg)) (s1Of reg) (a.ea.toNat % 2 ^ 57) with
    | some v =>
      dropAcc core ctx a.key
      emitDue core ctx a.idx (.scalar v) (← now)
    | none => raiseUncorr core ctx a.ea
  | .tlbinv l =>
    let s ← getS
    if !l.any s.owed then
      dropAcc core ctx a.key
      emitDue core ctx a.idx .null (← now)
      modCtx core ctx fun c => c.onWin fun w => { w with committed := true }
  | .store [] =>
    dropAcc core ctx a.key
    goOn core ctx
  | _ => dispatch core ctx a

/-- No earlier access to an overlapping byte is unacknowledged (R193). -/
def Ctx.clear (c : Ctx) (a : Access) : Bool :=
  !c.accs.any fun b => keyLt b.key a.key && b.unacked && b.overlaps a

/-- The load's candidate stores have resolved (R173). -/
def Ctx.loadReady (c : Ctx) (a : Access) : Bool :=
  match a.op with
  | .load => a.blk != c.blk || c.win.candidatesDone a.lsid
  | _ => true

/-- The earliest unsent non-relaxed access. Stores still in the window come last in their block and are not sent before
commit. -/
def Ctx.nextPlain (c : Ctx) : Option Access :=
  c.accs.find? fun a => a.cls != .relaxed && (a.st == .drain || (a.st == .window && !a.isStore))

/-- A FAR access may go: its page is present (R193, R200). -/
def Access.pagePresent (a : Access) : Bool :=
  match a.far with
  | some f => f.st == 2
  | none => true

/-- Send non-relaxed may act on this access (Table 3 of R193, R197). -/
def Ctx.canSendPlain (c : Ctx) (a : Access) : Bool :=
  !(c.accs.any fun b => b.cls != .relaxed && b.st == .sent) &&
    (a.st != .drain || !c.accs.any fun b => b.st == .drain && keyLt b.key a.key) &&
    c.clear a && a.pagePresent && c.loadReady a && !c.held a &&
    (a.cls != .strong || !c.accs.any fun b =>
      b.inPool || b.st == .replay || (b.cls == .relaxed && b.unacked && keyLt b.key a.key))

/-- Whether a window access could be aborted away: nothing is sent for a context that is not running. -/
def Ctx.sending (c : Ctx) : Bool := c.status == .active || c.status == .halted

/-- A block is executing. -/
def Ctx.running (c : Ctx) : Bool := c.phase == .run && !c.win.committed

/-- Start the executing block again: an access of it has been sent before an earlier one to the same bytes, whose address
was not known then. The abort leaves no trace (R71), so R196 holds in both its parts. DEDUCED (log 13). -/
def startOver (core ctx : Nat) : M Unit := do abort core ctx (.fetch (← getCtx core ctx).win.addr 0)

/-- An access that is sent before forms of earlier places is noted (R196). -/
def noteAhead (core ctx : Nat) (a : Access) : M Unit :=
  modCtx core ctx fun x => x.onWin fun w => { w with ahead := if (x.before a).isEmpty then w.ahead else w.ahead ++ [a] }

/-- SEND_NON_RELAXED (R193). After a lost store a strong access of the executing block is not sent: the block aborts, and
the handler is entered before it starts again (R201). -/
def execSendNonRelaxed (core ctx : Nat) (s : State) : Host.Outcome State Fault Refusal :=
  let c := s.ctx core ctx
  match c.nextPlain with
  | some a =>
    if !(c.sending && c.canSendPlain a) then act s []
    else if c.overtaken a then runM (startOver core ctx) s
    else if c.lost.isSome && a.cls == .strong && c.running then runM (abort core ctx (.fetch c.win.addr 0)) s
    else runM (do
      noteAhead core ctx a
      sendAcc core ctx a) s
  | none => act s []

/-- Of one form the lower part is performed first, and the elements in ascending lanes (R160). -/
def Ctx.inTurn (c : Ctx) (a : Access) : Bool :=
  !c.accs.any fun b => b.blk == a.blk && b.rank == a.rank && b.idx == a.idx && b.part < a.part && b.unacked

/-- Send relaxed may act on this access (Table 3 of R193, R196). -/
def Ctx.canSendRelaxed (c : Ctx) (a : Access) : Bool :=
  a.cls == .relaxed &&
    (a.st == .pooled || ((c.accs.filter (·.inPool)).length < 8 &&
      ((a.st == .window && !a.isStore) ||
        (a.st == .drain && !c.accs.any fun b => b.st == .drain && keyLt b.key a.key)))) &&
    c.clear a && c.loadReady a && c.inTurn a && !c.heldRelaxed a &&
    !c.accs.any fun b => b.cls == .strong && b.unacked && keyLt b.key a.key

/-- SEND_RELAXED (R193): the nth relaxed access that may be sent. -/
def execSendRelaxed (core ctx nth : Nat) (s : State) : Host.Outcome State Fault Refusal :=
  let c := s.ctx core ctx
  match (c.accs.filter c.canSendRelaxed)[nth]? with
  | some a =>
    if !c.sending then act s []
    else if c.overtaken a then runM (startOver core ctx) s
    else runM (do
      noteAhead core ctx a
      modAcc core ctx a.key fun x => { x with inPool := true }
      sendAcc core ctx a) s
  | none => act s []

/-! ### Arrive -/

/-- A request that a fence answers with a NACK (R340): a job does not survive it; of a context the access stays out until the
NACK comes, but for the park slot that an attempt has taken (R181). -/
def nackReq (r : Req) : M Unit := do
  let s ← getS
  match r.eng with
  | some e => if (s.slotOf e.cl e.slot).gen == e.gen then loseJob e.cl e.slot
  | none =>
    modNet fun n => { n with umbraNacks := n.umbraNacks ++ [(r.core, r.ctx, r.gen)] }
    if (s.ctx r.core r.ctx).gen == r.gen then
      modAcc r.core r.ctx r.acc.key fun a => { a with nacked := true }
      match r.acc.park with
      | some (_, p) => freeSlotOf r.core p
      | none => pure ()

/-- ARRIVE (R193): a fenced umbra answers with a NACK (R340), which a job does not survive. -/
def execArrive (source : Source) (home : Home) (s : State) : Host.Outcome State Fault Refusal :=
  match s.net.channels.find? fun x => x.1 == source && x.2.1 == home with
  | none => act s []
  | some x =>
    runM (do
      let t ← now
      let r := { x.2.2 with at_ := t, queued := false }
      modNet fun n => { n with channels := n.channels.erase x }
      if s.fencedHome home then nackReq r
      else modNet fun n => { n with homes := n.homes ++ [(home, r)] }) s

/-! ### Perform -/

/-- Rights an operation needs at a home (Table 7, Table 4 of R318, R234, R235). -/
def MemOp.needs : MemOp → Rights
  | .load | .desc => { r := true }
  | .store _ => { w := true }
  | .ldf | .feget | .jwait | .hwait => { r := true, s := true }
  | .stf _ | .sts _ | .feset | .feclr => { w := true, s := true }
  | .lde | .join | .atom _ _ _ _ => { r := true, w := true, s := true }
  | .htest => { r := true }
  | .fence | .pgstat | .tlbinv _ => {}
  | .rate (.read _) | .rate .stat => { r := true }
  | .rate _ => { r := true, w := true, s := true }

/-- Reads and writes for the watch check (R371). -/
def MemOp.reads : MemOp → Bool
  | .store _ | .feset | .feclr | .fence | .pgstat | .tlbinv _ => false
  | _ => true

def MemOp.writes : MemOp → Bool
  | .load | .desc | .ldf | .feget | .jwait | .hwait | .htest | .fence | .pgstat | .tlbinv _ | .rate (.read _)
  | .rate .stat => false
  | _ => true

/-- The lowest free wake-table entry of a core (R183: 256 entries). -/
def freeWake (c : Core) : Option Nat := (List.range 256).find? fun i => !c.wakeTable.any fun x => x.1 == i

/-- A waiting form whose condition does not hold: an attempt that parks makes the wake entry and the mark in the same
operation (R74, R181). -/
def mustWait (k word : Nat) (r : Req) : M ReplyBody := do
  match r.acc.park with
  | none => return .notYet
  | some (cond, pslot) =>
    let c ← getCore k
    match freeWake c with
    | none => return .tableFull
    | some i =>
      let e : WakeEntry := { cond := cond, pslot := pslot, gen := r.gen, ctx := r.ctx, core := r.core, off := word }
      modCore k fun c => { c with wakeTable := sset i e c.wakeTable }
      let w := poolKey k (8 * word) / 8
      eff (.sync w ((← getS).syncOf w ||| 2))
      return .parked

/-- New value of an atomic; none when no write occurs (Table 10 of R180). AFADD of two NaNs whose payloads tie takes the old
value before b: it stands in no slot, so that R132 gives no order (DESIGN CHOICE, log 55). -/
def atomNew (op : AtomOp) (old b c : Word) (rm : BitVec 2) : Option Word :=
  match op with
  | .add => some (old + b)
  | .min => some (if old.toInt ≤ b.toInt then old else b)
  | .max => some (if b.toInt ≤ old.toInt then old else b)
  | .minu => some (if old ≤ b then old else b)
  | .maxu => some (if b ≤ old then old else b)
  | .and => some (old &&& b)
  | .or => some (old ||| b)
  | .xor => some (old ^^^ b)
  | .xch => some b
  | .cas => if old == b then some c else none
  | .fadd =>
    let md := rmodeOf rm.toNat
    some (BitVec.ofNat 64 (f64.ofVal md false (fvAdd md 0 (f64.decode old.toNat) (f64.decode b.toNat))))

def agentOf (s : State) (r : Req) : Word := coreAgent s r.core r.ctx r.gen

/-- One request applied at a pool offset, indivisibly (R176, R180, R83, R84, R234, R235, R319). -/
def applyPool (k off : Nat) (r : Req) : M ReplyBody := do
  let a := r.acc
  let word := off / 8
  let v ← peek64 (poolKey k off)
  let full := ((← getS).syncOf (poolKey k off / 8)).getLsbD 0
  let bad ← match a.op with
    | .store _ | .fence | .pgstat | .tlbinv _ | .rate _ => pure none
    | .sts _ => if r.eng.isSome then pure none else eccRead k off a.size
    | _ => eccRead k off a.size
  if let some b := bad then return .refused 0x10 (a.ea + BitVec.ofNat 64 b - BitVec.ofNat 64 off)
  match a.op with
  | .load | .desc => return .bytes (← peek (poolKey k off) a.size)
  | .store d => poolWriteSome k off d; return .written
  | .ldf | .hwait => if full then return .value v else mustWait k word r
  | .lde =>
    if full then
      setFull k word false
      evalWaiters k word
      return .value v
    else mustWait k word r
  | .stf x => if full then mustWait k word r else do syncWrite k off x true; return .written
  | .sts x => syncWrite k off x true; return .written
  | .feset => setFull k word true; evalWaiters k word; return .written
  | .feclr => setFull k word false; evalWaiters k word; return .written
  | .feget => return .value (((← getS).syncOf (poolKey k off / 8)).setWidth 64)
  | .atom op b c rm =>
    match atomNew op v b c rm with
    | some n => poolWrite64 k off n
    | none => pure ()
    return .value v
  | .join => poolWrite64 k off (v - 1); return .value (v - 1)
  | .jwait => if v == 0 then return .value 0 else mustWait k word r
  | .htest => return .value (if full then v else BitVec.allOnes 64)
  | .rate op =>
    let s ← getS
    let need := a.op.needs
    let inside := fun lo hi =>
      if a.core then match findWindow (s.core k).windows r.asid.toNat (a.ea.toNat % 2 ^ 22) 64 need with
        | some w => wbitsOf w.2.1 21 0 ≤ lo && hi ≤ wbitsOf w.2.1 21 0 + (wbitsOf w.1 43 22 - wbitsOf w.1 21 0)
        | none => false
      else (s.ctx r.core r.ctx).win.snap.core.lprot.toList.any fun w =>
        regionAdmits w r.ctx off (off + 64) need && lprotBase w ≤ lo && hi ≤ lprotLimit w
    let who : Agent := { id := agentOf s r, gtid := r.gtid, asid := r.asid.toNat }
    let (touched, clocks) ← rateHold k off op
    let b ← rateAction k off op a.ea inside fun o n rd wr => homeWatch k o n rd wr who
    let cursor := (← readDesc k off).cursor
    holdPort k (touched cursor) (clocks cursor - 1)
    return b
  | .fence | .pgstat | .tlbinv _ => return .written

/-- One request applied at a far-memory bank (R180, R193). -/
def applyFar (r : Req) : M ReplyBody := do
  let a := r.acc
  match a.op with
  | .load => return .bytes (← peek a.addr a.size)
  | .store d => pokeSome a.addr d; return .written
  | .atom op b c rm =>
    let v ← peek64 a.addr
    match atomNew op v b c rm with
    | some n => poke64 a.addr n
    | none => pure ()
    return .value v
  | _ => return .written

/-- The own check has examined the access (R372, R373). -/
def ownExamined (k : Nat) (r : Req) : Bool := r.core == k && !r.acc.core && r.acc.seen

/-- A drained CORE store that the window no longer admits is discarded and reported as a PROT notice, a record of kind 7
(R171, R218). -/
def storeRefused (k : Nat) (r : Req) (a : Word) : M Unit :=
  postOrWait (k / 8) { q := recWord r.asid.toNat true r.acc.idx 7 0x02, w0 := r.gtid, w1 := r.acc.baddr, w2 := a }

/-- The pool offset of a request: a window must admit a CORE access whole, its parts too (R157, R169). -/
def Req.offset (r : Req) (s : State) (k : Nat) : Option Nat :=
  if r.acc.core then
    let whole := r.acc.whole.getD (r.acc.ea, r.acc.size)
    (windowOffset (s.core k).windows r.asid.toNat (whole.1.toNat % 2 ^ 22) whole.2 r.acc.op.needs).map
      (· + (r.acc.ea.toNat - whole.1.toNat))
  else some (r.acc.addr - poolKey k 0)

/-- A request taken from the head of its home's queue (R193, R169, R171). -/
def performReq (r : Req) : M ReplyBody := do
  let s ← getS
  match r.acc.home with
  | .far _ => applyFar r
  | .pool k =>
    match r.offset s k with
    | none =>
      let a := (r.acc.whole.getD (r.acc.ea, 0)).1
      if r.acc.isStore then
        storeRefused k r a
        return .written
      else return .refused 0x02 a
    | some off =>
      if r.own then countCore k 0x19 0
      let b ← applyPool k off r
      if !ownExamined k r then
        homeWatch k off r.acc.size r.acc.op.reads r.acc.op.writes
          { id := (r.eng.map (·.id)).getD (agentOf s r), gtid := r.gtid, asid := r.asid.toNat }
      return b

/-- A reply whose generation differs is discarded and counted (R93). -/
def stale (core : Nat) : M Unit := do
  modCore core fun c => { c with stale := c.stale + 1 }
  countCore core 0x0D 0

/-- Acknowledge (R193): the access leaves the pool or the outstanding set; a store is then done with, any other form
has its reply to come. -/
def acknowledge (p : Reply) : M Unit := do
  let c ← getCtx p.core p.ctx
  if c.gen != p.gen then stale p.core
  else if p.acc.isStore then
    dropAcc p.core p.ctx p.acc.key
    goOn p.core p.ctx
  else
    modAcc p.core p.ctx p.acc.key fun x => { x with st := .acked, inPool := false }
    modNet fun n => { n with replies := n.replies ++ [p] }

/-- Some request of a job on its way is of this kind. -/
def State.jobSent (s : State) (cl slot : Nat) (p : EngKind → Req → Bool) : Bool :=
  s.net.anyReq fun r => match r.eng with
    | some e => e.cl == cl && e.slot == slot && e.gen == (s.slotOf cl slot).gen && p e.kind r
    | none => false

/-- Restart the suspended job a handle names (R287, R311): its word is cleared and the job is ready, ahead of every job
not yet started; whether it was there. A word behind a fence is not cleared, and its job is lost (R340, log 46). -/
def restartJob (e : EngRef) (r : Req) (h : Nat) (oks : List Nat) : M Bool := do
  let s ← getS
  let slot := bits h 13 8
  match s.jobOf e.cl slot, s.jobOf e.cl e.slot with
  | some j, some mine =>
    let susp := match j.st with
      | .suspended st => oks.contains st.toNat
      | _ => false
    if bits h 15 14 == e.engine && (s.slotOf e.cl slot).gen.toNat == h % 256 && j.engine == e.engine && susp &&
        j.part == mine.part then
      if s.nacks e.cl j.w.1 then
        loseJob e.cl slot
        return false
      syncWrite j.w.1 j.w.2 0 false
      holdRange j.w.1 j.w.2 8
      homeWatch j.w.1 j.w.2 8 false true { id := e.id, gtid := r.gtid, asid := r.asid.toNat }
      modJob e.cl slot fun j => { j with st := .ready }
      return true
    else return false
  | _, _ => return false

/-- An engine's request is performed and acknowledged (R199): what it writes or reads reaches its job, but for a word read
ahead that the job has meanwhile sent a write to; the perform that writes a completion word ends or suspends the job (R229,
R233). -/
def performEngine (e : EngRef) (r : Req) : M Unit := do
  let here : M Bool := do return ((← getS).slotOf e.cl e.slot).gen == e.gen
  match e.kind with
  | .write =>
    let _ ← performReq r
    if ← here then modJob e.cl e.slot fun j => { j with out := j.out - 1 }
  | .read _ | .ahead =>
    let own := (← getS).jobSent e.cl e.slot fun k x => k == .write && x.acc.addr / 8 == r.acc.addr / 8
    let b ← performReq r
    let w := r.acc.addr / 8
    let v := (← peek64 (8 * w)).toNat
    if ← here then
      modJob e.cl e.slot fun j =>
        let j := { j with out := j.out - 1 }
        match b, e.kind with
        | .bytes _, .read true => { j with kept := (w, v) :: j.kept }
        | .bytes _, .ahead => if own then j else { j with early := (w, v) :: j.early }
        | .bytes _, _ => { j with temp := (w, v) :: j.temp }
        | _, _ => { j with bad := w :: j.bad }
  | .arena op =>
    let k := match r.acc.home with
      | .pool k => k
      | .far _ => 0
    let a ← arenaPerform k op { id := e.id, gtid := r.gtid, asid := r.asid.toNat }
    if ← here then
      modJob e.cl e.slot fun j => match a with
        | some l => { j with out := j.out - 1, ans := some l }
        | none => { j with out := j.out - 1, bad := r.acc.addr / 8 :: j.bad }
  | .word status ends =>
    let _ ← performReq r
    if ← here then wordWritten e.cl e.slot status ends
  | .resume h oks bad =>
    let ok ← restartJob e r h oks
    let _ ← performReq { r with acc := { r.acc with op := .sts (if ok then doneWord h 0 0 else bad) } }
    if ← here then wordWritten e.cl e.slot (if ok then 0 else 4) true

/-- Two far accesses lie on one page, of 32 MiB where either is on such a page: for the replay queue (R190). -/
def Access.samePage (a b : Access) : Bool :=
  let big := fun (x : Access) => (x.far.map (·.big)).getD false
  let n := if big a || big b then 2 ^ 25 else 65536
  (a.addr - farKey 0) / n == (b.addr - farKey 0) / n

/-- The port of a pool serves a request in this clock (R18): the core's own lengthens an action that holds the port by one
(R319), and one of more than 64 bytes holds it itself. -/
def servePort (h : Home) (r : Req) : M Unit := do
  match h with
  | .pool k =>
    let t ← now
    modCore k fun c => { c with
      portAt := some t, portLast := if r.own then c.portLast else r.agent k
      hold := if t < c.hold.till then { c.hold with till := c.hold.till + 1 } else c.hold }
    let off := r.acc.addr - poolKey k 0
    let n := portClocks off r.acc.size
    if n > 1 then holdPort k [(off, r.acc.size)] (n - 1)
  | .far _ => pure ()

/-- PERFORM (R193), with Defer for a relaxed store to a filling page. -/
def execPerform (home : Home) (s : State) : Host.Outcome State Fault Refusal :=
  match s.arrived home with
  | none => act s []
  | some x =>
    let r := x.2
    if s.portShut home r then act s []
    else runM (do
      modNet fun n => { n with homes := n.homes.erase x }
      servePort home r
      let live := (s.ctx r.core r.ctx).gen == r.gen
      if r.acc.isStore && r.acc.cls == .relaxed && !r.acc.pagePresent then
        if (s.cluster (r.core / 8)).replay.length < 16 then
          modCluster (r.core / 8) fun c => { c with replay := c.replay ++ [r] }
          if live then modAcc r.core r.ctx r.acc.key fun a => { a with st := .replay, inPool := false }
        else if live then modAcc r.core r.ctx r.acc.key fun a => { a with st := .pooled }
      else match r.eng with
        | some e => performEngine e r
        | none =>
          let b ← performReq r
          let p : Reply := { core := r.core, ctx := r.ctx, gen := r.gen, acc := r.acc, body := b }
          if r.own then acknowledge p else modNet fun n => { n with performed := n.performed ++ [p] }) s

/-- REPLAY (R193, R213): an entry whose page is present, no older entry of its page standing before it. -/
def execReplay (cluster nth : Nat) (s : State) : Host.Outcome State Fault Refusal :=
  let q := (s.cluster cluster).replay
  match q[nth]? with
  | none => act s []
  | some r =>
    if !r.acc.pagePresent || (q.take nth).any fun x => x.acc.samePage r.acc then act s []
    else runM (do
      modCluster cluster fun c => { c with replay := c.replay.eraseIdx nth }
      let b ← performReq r
      modNet fun n => { n with
        performed := n.performed ++ [{ core := r.core, ctx := r.ctx, gen := r.gen, acc := r.acc, body := b }] }) s

/-- ACKNOWLEDGE (R193). -/
def execAcknowledge (core ctx : Nat) (s : State) : Host.Outcome State Fault Refusal :=
  match s.net.performed.find? fun p => p.core == core && p.ctx == ctx with
  | none => act s []
  | some p =>
    runM (do
      modNet fun n => { n with performed := n.performed.erase p }
      acknowledge p) s

/-! ### Replies -/

/-- The trap request of an HWAIT and the cause its status asks for (R234). -/
def hwaitTrap (word : Code) (v : Word) : Option (BitVec 8) :=
  if word.z.getLsbD 20 then
    match wbitsOf v 31 24 with
    | 0x10 => some 0x0A
    | 0x11 => some 0x09
    | 0x12 => some 0x12
    | _ => none
  else none

/-- A record has been resolved with a value (Table 7 of R217). -/
def resolveTask (core ctx : Nat) (v addr blk : Word) (idx : BitVec 7) : M Unit := do
  let t ← now
  modCtx core ctx fun c => { c with wait := none }
  if v == 0 then modCtx core ctx fun c => { c with phase := .fetch blk t }
  else enterTrap core ctx (if v == 0x02 then 0x02 else if v == 0x12 then 0x12 else 0x01) addr blk idx

/-- A partition is being pre-empted: a form that fails an attempt parks at once (R336). -/
def State.preempting (s : State) (core : Nat) : Bool := (s.partRec core).preempt.isSome

/-- The commit point has come back unperformed (R74, R202), so that it can be taken back again; the abort that an eclipse
line, a pre-emption or an invalidation has asked for meanwhile comes now (R223, R334, R336). True when the block goes
on. -/
def reopen (core ctx : Nat) (a : Access) : M Bool := do
  if a.rank != 2 then return true
  modCtx core ctx fun c => c.onWin fun w => { w with committed := false }
  let c ← getCtx core ctx
  if c.win.doomed then
    abort core ctx (.fetch c.win.addr 0)
    return false
  return true

/-- A reply reaches its context. -/
def deliverReply (core ctx : Nat) (a : Access) (body : ReplyBody) : M Unit := do
  let s ← getS
  let c := s.ctx core ctx
  let t ← now
  let x := (c.accs.find? fun b => b.key == a.key).getD a
  if x.dead then
    dropAcc core ctx a.key
    match a.park, a.home, body with
    | some (_, p), .pool k, .parked =>
      freeSlotOf core p
      dropWakes k fun e => e.core == core && e.pslot == p && e.gen == c.gen
    | some (_, p), _, _ => freeSlotOf core p
    | none, _, _ => pure ()
    goOn core ctx
  else match body with
  | .bytes bs => gotBytes core ctx x bs
  | .value v =>
    dropAcc core ctx a.key
    match a.park with
    | some (_, p) => freeSlotOf core p
    | none => pure ()
    modCtx core ctx fun c => { c with wait := none }
    let trap := match a.op with
      | .hwait => ((c.win.insts[a.idx]?).map fun i => hwaitTrap i.word v).join
      | _ => none
    match trap with
    | some cause => raiseTrap core ctx cause a.ea a.idx
    | none =>
      if a.rank == 2 then modCtx core ctx fun c => c.onWin fun w => { w with committed := true }
      emitDue core ctx a.idx (.scalar v) (max a.due t)
  | .vec b n =>
    dropAcc core ctx a.key
    emitDue core ctx a.idx (.vector b 6 n) (max a.due t)
  | .written =>
    dropAcc core ctx a.key
    match a.park with
    | some (_, p) => freeSlotOf core p
    | none => pure ()
    modCtx core ctx fun c => { c.onWin fun w => { w with committed := true } with wait := none }
    emitDue core ctx a.idx .null t
  | .notYet =>
    dropAcc core ctx a.key
    let pre := s.preempting core
    if ← reopen core ctx a then modCtx core ctx fun c => { c with wait := some (match c.wait with
      | some w => { w with out := false, expired := w.expired || pre }
      | none => { on := .form, idx := a.idx, acc := { a with st := .window }, start := t, parkAt := t,
                  expired := c.regs.wspin == 0 || pre }) }
  | .parked =>
    dropAcc core ctx a.key
    countCore core 0x0A ctx
    match a.park with
    | some (_, p) =>
      modCore core fun k => { k with pslots := k.pslots.map fun y =>
        if y.1 == p then (p, { y.2 with clk := t }) else y }
      abort core ctx (.park p)
      advance core ctx
    | none => pure ()
  | .tableFull =>
    dropAcc core ctx a.key
    match a.park with
    | some (_, p) => freeSlotOf core p
    | none => pure ()
    noticeParkfull core c.task.gtid a.baddr a.ea a.idx
    if ← reopen core ctx a then modCtx core ctx fun c => { c with wait := c.wait.map fun w =>
      { w with out := false, retry := true, parkAt := t + 16 * max c.regs.wspin.toNat 1 } }
  | .refused cause addr =>
    dropAcc core ctx a.key
    match a.park with
    | some (_, p) => freeSlotOf core p
    | none => pure ()
    if cause == 0x10 then raiseUncorr core ctx addr else raiseTrap core ctx cause addr a.idx

end Sys2Proof.Machine
end

