-- ==== Sys2Proof/Machine/Blocks.lean ====
section
/-! DEFINITION. Blocks from fetch to commit (R64 to R72, R41, R42, R49, R50, R188, R189, R226, R370, R389), the end of
tasks (R80, R333), trap entry once loads have returned (R330), and what a context does in its slot. -/

namespace Sys2Proof.Machine

/-! ### Fetch -/

/-- A fault of the fetch of block `a` (R50): no block is executing, so the handler resumes at `a`. -/
def fetchTrap (core ctx : Nat) (cause : BitVec 8) (a : Word) : M Unit := do
  countCore core 0x0B ctx
  trapEntry core ctx cause a a 64 a

/-- PROT of a fetch (R50, R226): a kind-7 record when translation found it (R218); without a pager area the task is
terminated (R390). -/
def fetchProt (core ctx : Nat) (a : Word) (far : Bool) (asid : Nat) : M Unit := do
  if far && ((← getS).pager (core / 8)).isNone then kill core ctx
  else
    if far then protRecord core ctx a a false 64 asid
    fetchTrap core ctx 0x02 a

/-- XDIR, from the cluster's pager area (Table 5 of R214); without one the directory is where the part keeps it
(log 21). -/
def xdirOf (cl : Nat) : M Nat := do
  match (← getS).pager cl with
  | some p => return ofBytes (← unitRead cl p.1 (p.2 + 0xC00) 8)
  | none => return Config.bootXdir

/-- XDIR stands behind the fence of another umbra, which answers the read with a NACK (R340). -/
def State.xdirFenced (s : State) (cl : Nat) : Bool := (s.pagerArea cl).isSome && (s.pager cl).isNone

/-- Bit o / 12 of the page's bitmap (R225, R226). -/
def blockStart (cl xslot o : Nat) : M Bool := do
  let b ← peek (farKey ((← xdirOf cl) + 1024 * xslot + o / 12 / 8)) 1
  return o % 12 == 0 && (b.headD 0).getLsbD (o / 12 % 8)

/-- Translate and check the destination of a fetch under the ASID register `reg` (R50, R211, R226): its physical address,
or none when a fault has been taken. A page that a stage-2 leaf of 32 MiB maps has no XSLOT (R207), so no bitmap admits
it. -/
def fetchTarget (core ctx : Nat) (a reg : Word) : M (Option Nat) := do
  let s ← getS
  let cl := core / 8
  match classify a 12 with
  | .far va =>
    match ← translate cl (s.partOf core) (BitVec.ofNat 12 (asidOf reg)) (s1Of reg) va with
    | .stage1 => transFault core ctx 1 a a a false 64 (asidOf reg); return none
    | .tableFail ia => transFault core ctx 3 a (BitVec.ofNat 64 ia) a false 64 (asidOf reg); return none
    | .tablePoison _ => fetchTrap core ctx 0x12 a; return none
    | .stage2 => transFault core ctx 2 a a a false 64 (asidOf reg); return none
    | .critical _ =>
      let c ← getCtx core ctx
      postOrWait cl { q := recWord (asidOf reg) false 64 5 0x10, w0 := c.task.gtid, w1 := a, w2 := a }
      modCtx core ctx fun c => { c with status := .halted, haltCause := 0x10, haltAddr := a }
      consume cl
      return none
    | .ok e =>
      if !e.x then fetchProt core ctx a true (asidOf reg); return none
      else match e.st.toNat with
        | 3 => fetchTrap core ctx 0x12 a; return none
        | 2 =>
          if e.iaBig then fetchProt core ctx a true (asidOf reg); return none
          else if (← getS).xdirFenced cl then
            let gen := (← getCtx core ctx).gen
            modNet fun n => { n with umbraNacks := n.umbraNacks ++ [(core, ctx, gen)] }
            return none
          else if ← blockStart cl e.xslot.toNat (va % 65536) then return some (e.phys va)
          else fetchProt core ctx a true (asidOf reg); return none
        | _ => transFault core ctx 2 a a a false 64 (asidOf reg); return none
  | _ => fetchProt core ctx a false (asidOf reg); return none

/-- The lines that n bytes at a physical address touch. -/
def linesOf (pa n : Nat) : List Nat := (List.range ((pa + n - 1) / 64 - pa / 64 + 1)).map fun i => pa / 64 + i

/-- Bytes out of the code cache. -/
def codeRead (c : Cluster) (pa n : Nat) : List Byte :=
  (List.range n).map fun i =>
    match c.code.find? fun l => l.line == (pa + i) / 64 with
    | some l => l.data.getD ((pa + i) % 64) 0
    | none => 0

def codePresent (c : Cluster) (ls : List Nat) : Bool := ls.all fun l => c.code.any fun x => x.line == l

/-- Bytes of the block at a physical address whose header's lines are present. -/
def blockBytes (c : Cluster) (pa : Nat) : Nat := 12 * (Code.len (BitVec.ofNat 96 (ofBytes (codeRead c pa 12))) + 2)

/-- Every line of the block is present (R389). -/
def codeHit (c : Cluster) (pa : Nat) : Bool :=
  codePresent c (linesOf pa 12) && codePresent c (linesOf pa (blockBytes c pa))

/-- Fill one line; a set of 8 loses its least recently used line (R389). -/
def fillLine (cl l : Nat) : M Unit := do
  let c ← getCluster cl
  if !codePresent c [l] then
    let d ← peek (farKey (64 * l)) 64
    modCluster cl fun c =>
      let same := c.code.filter fun x => x.line % 512 == l % 512
      let rest := if same.length ≥ 8 then c.code.eraseP fun x => x.line % 512 == l % 512 else c.code
      { c with code := rest ++ [{ line := l, data := d }] }

/-- The words of a block. -/
def wordsAt (bs : List Byte) : Nat → List Code
  | 0 => []
  | n + 1 => (BitVec.ofNat 96 (ofBytes (bs.take 12)) : Code) :: wordsAt (bs.drop 12) n

/-- UNCORR of a block being fetched (R49), the word at `addr`: nothing has executed; the task waits for the
containment. -/
def fetchUncorr (core ctx : Nat) (addr : Word) : M Unit := do
  countCore core 0x0B ctx
  modCtx core ctx fun c => { c with status := .halted, haltCause := 0x10, haltAddr := addr }
  consume (core / 8)

/-- What remains to be skipped once the block at `a` has started: what was meant for it is used up, and what was meant for
another block waits only for the return from a handler (R90, R332, R370, R372). -/
def Ctx.skipAfter (c : Ctx) (a : Word) : Skips := if c.regs.hf && c.task.skip.blk != a then c.task.skip else {}

/-- What this execution of the block at `a` skips. -/
def Ctx.skipsNow (c : Ctx) (a : Word) : Skips := if c.task.skip.blk == a then c.task.skip else {}

/-- The retry of R41 that is still open once the block at `a` has started; that of a block which a handler has interrupted
waits in `sigHeld` for the return. -/
def Ctx.retryAfter (c : Ctx) (a : Word) : Option Word := if c.task.sigRetry == some a then some a else none

/-- Start the block at `a`, its lines present at `pa` (R68): ECC (R49), the decoder's check, the register snapshot. No slot
of the context before `n` clocks from now issues. -/
def startBlock (core ctx : Nat) (a : Word) (pa : Nat) (snap : Snap) (n : Nat) : M Unit := do
  let cl := core / 8
  let c ← getCluster cl
  let size := blockBytes c pa
  let ls := linesOf pa size
  let mine := c.code.filter fun x => ls.contains x.line
  match mine.find? fun x => x.err == .double with
  | some x => fetchUncorr core ctx (ea a (max (64 * x.line) pa - pa))
  | none =>
    modCluster cl fun c => { c with
      code := (c.code.filter fun x => !ls.contains x.line) ++ mine.map fun x => { x with err := .none }
      codeFixed := c.codeFixed + (mine.filter fun x => x.err == .single).length }
    let ws := wordsAt (codeRead c pa size) (size / 12)
    let h := ws.headD 0
    let body := ws.drop 1
    match if h.isHeader then body.findIdx? fun w => (decode w).isNone else some 0 with
    | some i => fetchUncorr core ctx (ea a (if h.isHeader then 12 * (i + 1) else 0))
    | none =>
      let t ← now
      modCtx core ctx fun c => { c with
        phase := .run, blk := c.blk + 1, busy := max c.busy (t + n)
        task := { c.task with skip := c.skipAfter a, sigRetry := c.retryAfter a }
        win := { addr := a, header := h, insts := body.map fun w => { word := w }, snap := snap, skip := c.skipsNow a } }

/-- The context may use its slot now (R64): the clock is its own and the slot is not yet used. -/
def slotOpen (c : Ctx) (ctx clk : Nat) : Bool := clk % 16 == ctx % 16 && c.lastSlot != some clk

/-- Registers at block start (R104). -/
def snapOf (s : State) (core ctx : Nat) : Snap :=
  { regs := (s.ctx core ctx).regs, core := (s.core core).regs, cluster := (s.cluster (core / 8)).regs }

/-- The breakpoint entries that the fetch matches (R370). -/
def breakMatch (p : Partition) (a gtid : Word) : List Breakpoint :=
  if p.attached then p.bps.toList.filter fun b => b.valid && b.addr == a && (b.gtid == 0 || b.gtid == gtid) else []

/-- The partition lets its contexts start blocks: no eclipse line is up (R334) and no pre-emption has reached its grace
period (R336). -/
def startsBlocks (p : Partition) : Bool :=
  p.eclipse.isNone && (match p.preempt with
    | some q => q.stage == .grace
    | none => true)

/-- Clocks for which a fetch that begins in a slot keeps the context from issuing: that slot and the next one (R68). -/
def fetchClocks : Nat := 17

/-- Clocks for the two slots after a fill has returned: R68 says only that nothing issues until then, and the model has the
fetch take its two slots all the same (DESIGN CHOICE, log 52). -/
def refetchClocks : Nat := 33

/-- BLOCK_FETCH (R68): it begins in a slot of the context, so that no other context of the core reads or writes a core-scope
register in the clock in which MFC samples it (R106, R117). -/
def execBlockFetch (core ctx : Nat) (s : State) : Host.Outcome State Fault Refusal :=
  let c := s.ctx core ctx
  let p := s.partRec core
  let go := fun (a : Word) (t : Nat) =>
    if c.status != .active || s.clk.toNat < t || s.clk.toNat < c.busy then act s []
    else if p.eclipse.isSome then
      act s [.ctx core ctx { c with status := .halted, haltBy := some .line, phase := .fetch a 0 }]
    else if !startsBlocks p && c.lost.isNone then act s []
    else if !slotOpen c ctx s.clk.toNat then act s []
    else runM (do
      modCtx core ctx fun c => { c with lastSlot := some s.clk.toNat }
      countCore core 0x06 ctx
      match c.lost with
      | some (addr, idx) =>
        modCtx core ctx fun c => { c with lost := none }
        countCore core 0x0B ctx
        trapEntry core ctx 0x12 addr a idx a
      | none =>
        let bs := if (c.skipsNow a).brk then [] else breakMatch p a c.task.gtid
        if !bs.isEmpty then
          modCtx core ctx fun c => { c with status := .halted, haltBy := some .breakpoint, haltCause := 0x0F, haltAddr := a,
                                             phase := .fetch a 0 }
          if bs.any (·.line) then requestRaise (s.partOf core) .debugger c.task.gtid
        else
          match ← fetchTarget core ctx a (s.core core).regs.asid with
          | none => pure ()
          | some pa =>
            let snap := snapOf s core ctx
            if codeHit (← getCluster (core / 8)) pa then startBlock core ctx a pa snap fetchClocks
            else
              countCluster (core / 8) 0x51
              modCtx core ctx fun c => { c with phase := .fill a, win := { addr := a, snap := snap } }) s
  match c.phase with
  | .fetch a t => go a t
  | .restore a t => go a t
  | _ => act s []

/-- CODE_CACHE_FILL (R68, R389): the missing lines come from the FAR page, translated as the block's start found the ASID
register (R104). None starts a block that a pre-emption past its grace period holds back (R336). -/
def execCodeCacheFill (core ctx : Nat) (s : State) : Host.Outcome State Fault Refusal :=
  let c := s.ctx core ctx
  match c.phase with
  | .fill a =>
    if c.status != .active || !startsBlocks (s.partRec core) then act s []
    else runM (do
      match ← fetchTarget core ctx a c.win.snap.core.asid with
      | none => pure ()
      | some pa =>
        for l in linesOf pa 12 do fillLine (core / 8) l
        let n := blockBytes (← getCluster (core / 8)) pa
        for l in linesOf pa n do fillLine (core / 8) l
        startBlock core ctx a pa c.win.snap refetchClocks) s
  | _ => act s []

/-! ### Results -/

/-- RESULT_DELIVERY (R67): tokens that are due reach their slots. -/
def execResultDelivery (core ctx : Nat) (s : State) : Host.Outcome State Fault Refusal :=
  let c := s.ctx core ctx
  if c.win.flights.any fun f => f.due ≤ s.clk.toNat then
    act s [.ctx core ctx (c.onWin fun w => w.land s.clk.toNat)]
  else act s []

/-- PAUSE_EXPIRY (R85). -/
def execPauseExpiry (core ctx : Nat) (s : State) : Host.Outcome State Fault Refusal :=
  let c := s.ctx core ctx
  match c.win.pauses.find? fun p => p.2 ≤ s.clk.toNat with
  | some p =>
    if c.status == .active then
      runM (do
        modCtx core ctx fun c => c.onWin fun w => { w with pauses := w.pauses.erase p }
        emitDue core ctx p.1 (.scalar s.clk) s.clk.toNat) s
    else act s []
  | none => act s []

/-! ### Completion -/

/-- The delivery a register takes at commit: the last in issue order that is not the null token (R30). A vector token is
none, be all its lanes null (R145): its tag is taken and the lanes are kept (R96). -/
def takeOut (outs : List RegOut) (vec : Bool) (n : Nat) : Option RegOut :=
  outs.foldl (fun best o =>
    if o.vec == vec && o.n == n && !o.tok.isNull then
      match best with
      | some b => if b.seq ≤ o.seq then some o else best
      | none => some o
    else best) none

/-- A v register after its token (R96): null lanes keep their bytes, the tag is the token's. -/
def mergeVec (old : VReg) (t : Token) : VReg :=
  { bits := (List.range 32).foldl (fun a j =>
      let src := if nullByte t j then old.bits else t.vbits
      a ||| ((src >>> (8 * j)).setWidth 8).setWidth 256 <<< (8 * j)) 0
    tag := t.tag }

/-- Registers after the commit's writes (R30, R96). -/
def writeOuts (r : Regs) (outs : List RegOut) : Regs :=
  { r with
    g := Vector.ofFn fun i => match takeOut outs false i.val with
      | some o => o.tok.word
      | none => vget 0 r.g i.val
    v := Vector.ofFn fun i => match takeOut outs true i.val with
      | some o => mergeVec (vget {} r.v i.val) o.tok
      | none => vget {} r.v i.val }

/-- The g14 the block would write is below SLIMIT at block start (R188): value and producer. -/
def stackBelow (w : Window) : Option (Word × Nat) :=
  match takeOut w.outs false 14 with
  | some o => if o.tok.word < w.snap.regs.slimit then some (o.tok.word, o.src) else none
  | none => none

/-- XSIG at a commit (R42). -/
def nextXsig (x a : Word) (e : Nat) : Word :=
  BitVec.ofNat 64 (rotl x.toNat 5 64) ^^^ BitVec.ofNat 64 (wbitsOf a 31 2) ^^^ BitVec.ofNat 64 e

/-- The exit number of an exit-class word (R38). -/
def exitNumber (w : Code) : Nat :=
  match decode w with
  | some (.bra f) | some (.jmp f) | some (.call f) | some (.ret f) | some (.tend f) | some (.trap f) | some (.mig f) =>
    f.exit.toNat
  | _ => 0

/-- Every instruction has fired and resolved, no access is owed (R69). -/
def Ctx.complete (c : Ctx) : Bool :=
  c.phase == .run && c.wait.isNone && c.win.insts.all (fun i => i.fired && i.resolved) &&
    !c.accs.any fun a => a.blk == c.blk && !a.isStore

/-- The sum over the counted deliveries differs from SIG (R40, R41). -/
def Window.sigBad (w : Window) : Bool := w.header.sig != 0 && w.sum != w.header.sig

/-- R72 up to the two checks that may abort: everything that does not depend on the commit point has fired and
resolved, no access of an earlier block is outstanding, no load of this one. -/
def Ctx.pointReady (c : Ctx) (k : Nat) : Bool :=
  let dep := reachFrom c.win.insts 0 [k]
  (c.win.insts.zipIdx.all fun x => dep.contains x.2 || (x.1.fired && x.1.resolved)) &&
    c.accs.all fun a => a.blk == c.blk && a.isStore

/-- What a committed exit starts (R77). The trap entry of a TRAP reads TVEC and TSAVE as the commit has just left them, an
MTC of the same block included: R104 settles the block's own execution only (DESIGN CHOICE, log 52). -/
def takeExit (core ctx : Nat) (w : Window) (e : ExitFired) : M Unit := do
  let t ← now
  let nextB := ea w.addr (12 * (w.header.len + 2))
  let setPhase := fun p => modCtx core ctx fun c => { c with phase := p }
  match (w.insts[e.idx]?).bind fun i => decode i.word with
  | some (.bra f) | some (.call f) => setPhase (.fetch (ea w.addr (zImm f.z * 4)) t)
  | some (.jmp _) | some (.ret _) => setPhase (.fetch e.a t)
  | some (.tend _) => setPhase .ending
  | some (.trap f) => trapEntry core ctx 0x08 (f.z.setWidth 64) nextB 65 nextB
  | some (.mig _) =>
    let s ← getS
    let c ← getCtx core ctx
    let owner := match classify e.a 1 with
      | .core id _ => s.phys (s.partOf core) id
      | _ => none
    match owner with
    | some k =>
      if k == core then setPhase (.fetch nextB t)
      else if declines c.regs then
        countCore core 0x15 0
        setPhase (.fetch nextB t)
      else
        setPhase (.migDrain nextB k)
        advance core ctx
    | none => setPhase (.fetch nextB t)
  | some (.rfe _) =>
    setPhase (.rfe (e.a != 0))
    advance core ctx
  | some (.halt _) =>
    modCtx core ctx fun c => { c with status := .halted, haltBy := some .haltForm, phase := .fetch nextB 0 }
    requestRaise ((← getS).partOf core) .halt (← getCtx core ctx).task.gtid
  | _ => setPhase (.fetch nextB t)

/-- Commit (R69, R193): registers, the MTC, stores to the drain queue, XSIG, then the exit. -/
def commitBlock (core ctx : Nat) (e : ExitFired) : M Unit := do
  let c ← getCtx core ctx
  let w := c.win
  let num := ((w.insts[e.idx]?).map fun i => exitNumber i.word).getD 0
  countCore core 0x08 ctx
  modCtx core ctx fun c =>
    let r := writeOuts c.regs w.outs
    { c with
      regs := { r with xsig := nextXsig r.xsig w.addr num }
      accs := c.accs.map fun a => if a.st == .window then { a with st := .drain } else a
      win := {}, task := { c.task with sigRetry := none } }
  match w.mtc with
  | some (n, v) => applyMtc core ctx n.toNat v
  | none => pure ()
  takeExit core ctx w e

/-- The block has a release store. -/
def Ctx.strongStore (c : Ctx) : Bool := c.accs.any fun a => a.blk == c.blk && a.isStore && a.cls == .strong

/-- The data slots and guard of a word. -/
def Inst.canIssue (i : Inst) : Bool :=
  match decode i.word with
  | some n => (match n.info with
    | some f => i.ready i.word.gm (formSlots f)
    | none => false)
  | none => false

/-- The commit point waits only for a check that will abort the block. -/
def Ctx.pointFails (c : Ctx) : Bool :=
  match c.win.commitPoint with
  | some k => !((c.win.insts[k]?).map (·.issued)).getD true && c.phase == .run &&
      ((c.win.insts[k]?).map (·.canIssue)).getD false && c.pointReady k && (c.win.sigBad || (stackBelow c.win).isSome || c.lost.isSome)
  | none => false

/-- The last checks of a block, the signature before the stack (R385): the block's abort when one fails, after a lost
store too (R201), else what follows. Once the comparison is passed, no mismatch before it is remembered (R41). -/
def lastChecks (core ctx : Nat) (c : Ctx) (lost : Bool) (go : M Unit) : M Unit :=
  if c.win.sigBad then sigMismatch core ctx none
  else do
    modCtx core ctx fun c => { c with task := { c.task with sigRetry := none } }
    match stackBelow c.win with
    | some (v, k) => raiseTrap core ctx 0x06 v k
    | none => if lost then abort core ctx (.fetch c.win.addr 0) else go

/-- What the commit slot of a block does (R69 to R72, R41, R188, R189). A complete block without exactly one exit takes
BADEXIT: it never commits, so the checks that a plain block meets at its commit do not come (R69, R70). A sync block
has met them at its commit point. -/
def commitSlot (core ctx : Nat) (c : Ctx) : M Unit :=
  if c.complete then
    match c.win.exits with
    | [e] =>
      if c.win.commitPoint.isSome then commitBlock core ctx e
      else lastChecks core ctx c (c.lost.isSome && c.strongStore) (commitBlock core ctx e)
    | _ => badExit core ctx
  else lastChecks core ctx c c.lost.isSome (pure ())

/-- BLOCK_COMMIT (R69): in a slot of the context of its own. -/
def execBlockCommit (core ctx : Nat) (s : State) : Host.Outcome State Fault Refusal :=
  let c := s.ctx core ctx
  if c.status == .active && slotOpen c ctx s.clk.toNat && c.busy ≤ s.clk.toNat && !s.niFull core ctx &&
      (c.complete || c.pointFails) then
    runM (do
      modCtx core ctx fun c => { c with lastSlot := some s.clk.toNat }
      countCore core 0x05 ctx
      commitSlot core ctx c) s
  else act s []

/-! ### Ends -/

/-- TRAP_ENTRY (R330): the aborted block's loads have returned. -/
def execTrapEntry (core ctx : Nat) (s : State) : Host.Outcome State Fault Refusal :=
  let c := s.ctx core ctx
  match c.phase with
  | .after (.trap cause addr blk idx resume) =>
    if c.loadsOut || c.status != .active then act s [] else runM (trapEntry core ctx cause addr blk idx resume) s
  | _ => act s []

/-- TASK_TERMINATE (R333): once the task has drained, its context becomes FREE and the launch holds one task less. -/
def execTaskTerminate (core ctx : Nat) (s : State) : Host.Outcome State Fault Refusal :=
  let c := s.ctx core ctx
  let doomed := match c.phase with
    | .after .terminate => !c.loadsOut
    | .killing => true
    | _ => false
  if !doomed then act s []
  else if !c.accs.isEmpty then act s [.ctx core ctx { c with phase := .killing }]
  else runM (do
    almanac core ctx 2
    freeCtx core ctx
    endTask c.task.launch true) s

/-- TASK_END (R80). -/
def execTaskEnd (core ctx : Nat) (s : State) : Host.Outcome State Fault Refusal :=
  let c := s.ctx core ctx
  if c.phase == .ending && c.accs.isEmpty && c.status == .active then
    runM (do
      almanac core ctx 1
      freeCtx core ctx
      endTask c.task.launch false) s
  else act s []

/-! ### The slot -/

/-- What the context does with its slot (R64, R67). -/
inductive SlotAct where
  | issue (idx : Nat) (i : Instr)
  | commit
  /-- Unused: the source of Table 3 of R367 that counts it. -/
  | unused (src : Nat)
  deriving DecidableEq, Repr

/-- Ready in the sense of R67; the irrevocable form only as R72 and R41 allow. -/
def Ctx.issuable (c : Ctx) (k : Nat) (i : Inst) : Bool :=
  i.canIssue && (if c.win.commitPoint == some k then
    c.pointReady k && !c.win.sigBad && (stackBelow c.win).isNone && c.lost.isNone else true)

/-- The instruction the slot issues: the lowest critical one that is ready, else the lowest ready one (R67). -/
def Ctx.choose (c : Ctx) : Option (Nat × Inst) :=
  let r := (c.win.insts.zipIdx.filter fun x => c.issuable x.2 x.1).map fun x => (x.2, x.1)
  match r.find? fun x => x.2.word.crit && ((x.2.word.info).map fun f => !f.mem).getD false with
  | some x => some x
  | none => r.head?

/-- What the slot does; `full` says that the context's NI send queue is full, which stalls the context (R66). -/
def slotAct (c : Ctx) (clk : Nat) (full : Bool) : SlotAct :=
  match c.status with
  | .free => .unused 0x03
  | .parked | .halted => .unused 0x04
  | .active =>
    match c.phase with
    | .run =>
      if clk < c.busy then .unused 0x06
      else if full then .unused 0x07
      else if c.complete || c.pointFails then .commit
      else match c.choose with
        | some (k, i) => (match decode i.word with
          | some n => .issue k n
          | none => .unused 0x05)
        | none => .unused 0x05
    | .fetch _ _ | .fill _ | .restore _ _ => .unused 0x06
    | _ => .unused 0x05

/-- The changes of a slot before the instruction it issues: tokens land, the slot is used and counted. A commit uses and
counts the slot itself. -/
def slotChanges (s : State) (core ctx : Nat) : List Eff :=
  let c := (s.ctx core ctx).onWin fun w => w.land s.clk.toNat
  let used := fun (src : Nat) => [Eff.ctx core ctx { c with lastSlot := some s.clk.toNat }, .log true core src ctx 1]
  match slotAct c s.clk.toNat (s.niFull core ctx) with
  | .issue _ _ => used 0x02
  | .commit => [.ctx core ctx c]
  | .unused n => used n

/-- The instruction a slot runs, and its index in the block. -/
def slotInstr (s : State) (core ctx : Nat) : Option (Nat × Instr) :=
  match slotAct ((s.ctx core ctx).onWin fun w => w.land s.clk.toNat) s.clk.toNat (s.niFull core ctx) with
  | .issue k n => some (k, n)
  | .commit => some (0, .blockCommit core ctx)
  | .unused _ => none

end Sys2Proof.Machine
end

