-- ==== Sys2Proof/Machine/Engine.lean ====
section
/-! DEFINITION. The engine job queue (R227 to R233), its commands up to acceptance (R231), the ends of jobs (R229), where
an engine's accesses go (R237, R250), and the monad in which a TME or DDE job runs: the answers of what it has already
done are replayed, so that each step begins where the last one ended. -/

namespace Sys2Proof.Machine

/-! ### Handles, completion words, agents -/

/-- A handle (R228). -/
def handleOf (engine slot gen : Nat) : Word := BitVec.ofNat 64 (engine * 2 ^ 14 + slot * 256 + gen)

/-- Agent id of an engine (Table 9 of R373). -/
def engineAgent (s : State) (cl engine : Nat) (h : Word) : Word :=
  BitVec.ofNat 64 ((engine + 1) * 2 ^ 62 + ((s.owner cl).map (·.2)).getD cl * 2 ^ 49) + h

def jobHandle (s : State) (cl slot : Nat) (j : Job) : Word := handleOf j.engine slot (s.slotOf cl slot).gen.toNat

def jobAgent (s : State) (cl slot : Nat) (j : Job) : Agent :=
  { id := engineAgent s cl j.engine (jobHandle s cl slot j), gtid := j.gtid, asid := asidOf j.asid }

/-- pdep(r, mask) of R239. -/
def pdepFrom : Nat → Nat → Nat → Nat → Nat
  | 0, _, _, _ => 0
  | n + 1, r, mask, b =>
    if mask.testBit b then (if r.testBit 0 then 2 ^ b else 0) + pdepFrom n (r / 2) mask (b + 1)
    else pdepFrom n r mask (b + 1)

def pdep (r mask : Nat) : Nat := pdepFrom 64 r mask 0

/-! ### Where an engine's accesses go (R237, R250, R211) -/

inductive Loc where
  | pool (core off : Nat)
  /-- A far address, and how it was translated (R211, R223). -/
  | far (pa : Nat) (ref : FarRef)
  deriving DecidableEq, Repr

/-- Memory key of a location. -/
def Loc.key : Loc → Nat
  | .pool k off => poolKey k off
  | .far pa _ => farKey pa

inductive Reach where
  | ok (l : Loc)
  | refused (a : Word)
  /-- A page absent, or filling where the access needs it present: record kind 6. -/
  | absent (a : Word)
  | poison (a : Word)
  /-- The double read of a critical leaf failed (R210). -/
  | critical (a : Word)
  /-- The pool lies in a fenced umbra, which answers with a NACK (R340). -/
  | nack
  deriving DecidableEq, Repr

/-- How an engine access is checked: the core whose LPU checks LOCAL addresses, the context's bit, partition, ASID
register, the rights needed, and whether a filling page takes the access (Table 4 of R211). -/
structure Via where
  cl : Nat
  home : Nat
  ctx : Nat
  part : Nat
  asid : Word
  need : Rights
  fillOk : Bool := false
  deriving DecidableEq, Repr

/-- Where n bytes at an address stand, the bytes lying on one page. -/
def reach (v : Via) (a : Word) (n : Nat) : M Reach := do
  let s ← getS
  match classify a n with
  | .loc off =>
    if s.nacks v.cl v.home then return .nack
    return if lpuOk (s.core v.home).regs.lprot v.ctx off n v.need then .ok (.pool v.home off) else .refused a
  | .core id off =>
    match s.phys v.part id with
    | none => return .refused a
    | some k =>
      if s.nacks v.cl k then return .nack
      match windowOffset (s.core k).windows (asidOf v.asid) off n v.need with
      | some o => return .ok (.pool k o)
      | none => return .refused a
  | .far va =>
    match ← translate v.cl v.part (BitVec.ofNat 12 (asidOf v.asid)) (s1Of v.asid) va with
    | .stage1 | .tableFail _ | .stage2 => return .absent a
    | .tablePoison _ => return .poison a
    | .critical _ => return .critical a
    | .ok e =>
      let ref : FarRef := { va := BitVec.ofNat 57 va, asid := BitVec.ofNat 12 (asidOf v.asid),
                            s1root := BitVec.ofNat 36 (s1Of v.asid), part := v.part, st := e.st, ia := e.ia, big := e.big,
                            iaBig := e.iaBig }
      if (v.need.r && !e.r) || (v.need.w && !e.w) then return .refused a
      else match e.st.toNat with
        | 3 => return .poison a
        | 2 => return .ok (.far (e.phys va) ref)
        | 1 => return if v.fillOk then .ok (.far (e.phys va) ref) else .absent a
        | _ => return .absent a
  | .bad => return .refused a

/-- A range cut at the 64 KiB page boundaries of FAR space; pool ranges stay whole. -/
def pageParts (a : Word) (n : Nat) : List (Word × Nat) :=
  if bits a.toNat 63 60 != 8 || n == 0 then [(a, n)]
  else
    let first := 65536 - a.toNat % 65536
    if n ≤ first then [(a, n)]
    else (a, first) :: (List.range ((n - first + 65535) / 65536)).map fun i =>
      (a + BitVec.ofNat 64 (first + 65536 * i), min 65536 (n - first - 65536 * i))

/-- What stops a list of accesses: the first that is refused, poisoned or critical, else the lowest absent page
(R377). -/
def worst (rs : List Reach) : Option Reach :=
  match rs.find? fun r => match r with
    | .refused _ | .poison _ | .critical _ | .nack => true
    | _ => false with
  | some r => some r
  | none => rs.foldl (fun acc r => match r, acc with
    | .absent a, some (.absent b) => some (.absent (if a.toNat < b.toNat then a else b))
    | .absent a, none => some (.absent a)
    | _, x => x) none

/-! ### Requests on their way (R199) -/

/-- n bytes from a memory key up, cut at 8-byte words: key and size of each piece. -/
def wordSpans (key n : Nat) : List (Nat × Nat) :=
  if n == 0 then [] else (List.range ((key % 8 + n + 7) / 8)).map fun i =>
    let lo := max key (key - key % 8 + 8 * i)
    (lo, min (key + n) (key - key % 8 + 8 * i + 8) - lo)

/-- Bytes from a memory key up, cut at 8-byte words; a word of which no byte is written sends nothing. -/
def wordCuts (key : Nat) (bs : List (Option Byte)) : List (Nat × List (Option Byte)) :=
  ((List.range ((key % 8 + bs.length + 7) / 8)).map fun i =>
    let lo := 8 * i - key % 8
    (key + lo, (bs.drop lo).take (8 * (i + 1) - key % 8 - lo))).filter fun x => x.2.any (·.isSome)

/-- An order that free values pick. -/
def shuffled {α : Type} : List α → M (List α)
  | [] => return []
  | x :: t => do
    let r ← shuffled t
    let i := ofBytes (← freeBytes 2) % (r.length + 1)
    return r.take i ++ x :: r.drop i

/-- The home of a memory key of a location. -/
def Loc.home (l : Loc) (key : Nat) : Home :=
  match l with
  | .pool k _ => .pool k
  | .far _ _ => .far (farLink (key - farKey 0))

/-- A request of a job at a memory key of a location. -/
def jobReq (s : State) (cl slot : Nat) (j : Job) (kind : EngKind) (op : MemOp) (l : Loc) (key n : Nat) : Req :=
  let far := match l with
    | .pool _ _ => none
    | .far _ ref => some ref
  { core := 8 * cl, ctx := 0, gen := 0, gtid := j.gtid, asid := BitVec.ofNat 12 (asidOf j.asid), part := j.part
    acc := { op := op, size := n, addr := key, home := l.home key, far := far }
    eng := some { engine := j.engine, cl := cl, slot := slot, gen := (s.slotOf cl slot).gen,
                  id := (jobAgent s cl slot j).id, kind := kind } }

/-- Send a job's requests from its engine, in any order (R199), each with a number of its own: how many. -/
def sendReqs (cl : Nat) (rs : List Req) : M Nat := do
  let rs ← shuffled rs
  modNet fun n => { n with
    channels := n.channels ++ rs.zipIdx.map fun x =>
      (.engine cl ((x.1.eng.map (·.engine)).getD 0), x.1.acc.home, { x.1 with acc := { x.1.acc with blk := n.serial + x.2 } })
    serial := n.serial + rs.length }
  return rs.length

/-- A job's write goes out from its engine word by word (R199): the number of requests sent. -/
def engineSend (cl slot : Nat) (j : Job) (l : Loc) (bs : List (Option Byte)) : M Nat := do
  let s ← getS
  sendReqs cl ((wordCuts l.key bs).map fun x => jobReq s cl slot j .write (.store x.2) l x.1 x.2.length)

/-- Pieces of words that a job still has to read: location, key, size, and whether the word is kept. -/
abbrev Piece := Loc × Nat × Nat × Bool

/-- The pieces of n bytes at a location. -/
def Loc.pieces (l : Loc) (n : Nat) (keep : Bool) : List Piece :=
  (wordSpans l.key n).map fun x => (l, x.1, x.2, keep)

/-- The value of a word as the job has read it: kept, or for the operation in progress, or ahead of it (R199). -/
def Job.word? (j : Job) (keep : Bool) (w : Nat) : Option Nat :=
  let find := fun (l : List (Nat × Nat)) => (l.find? fun x => x.1 == w).map (·.2)
  (find (if keep then j.kept else j.temp)).or (find j.early)

/-- Pieces the job has not read yet. -/
def Job.missing (j : Job) (ps : List Piece) : List Piece :=
  (ps.filter fun p => !j.bad.contains (p.2.1 / 8) && (j.word? p.2.2.2 (p.2.1 / 8)).isNone).eraseDups

/-- Bytes of a location as the job has read them. -/
def Job.bytesAt (j : Job) (keep : Bool) (l : Loc) (n : Nat) : List Byte :=
  let key := l.key
  (((List.range ((key % 8 + n + 7) / 8)).flatMap fun i => bytesOf 8 ((j.word? keep (key / 8 + i)).getD 0)).drop (key % 8)).take n

/-- A read of one of them met an uncorrectable error (R166). -/
def Job.spoilt (j : Job) (ps : List Piece) : Bool := ps.any fun p => j.bad.contains (p.2.1 / 8)

/-- A read of this word is on its way to the job. -/
def State.reading (s : State) (cl slot w : Nat) : Bool :=
  s.jobSent cl slot fun k r => r.acc.addr / 8 == w && (match k with
    | .read _ | .ahead => true
    | _ => false)

/-- Those of a list that free values pick. -/
def someOf {α : Type} : List α → M (List α)
  | [] => return []
  | x :: t => do
    let b ← freeBytes 1
    let r ← someOf t
    return if (b.headD 0).getLsbD 0 then x :: r else r

/-- Send the reads of pieces that are not on their way, and of others that will be needed some, which the free values pick
(R199): how many. -/
def sendReads (cl slot : Nat) (j : Job) (ps more : List Piece) : M Nat := do
  let s ← getS
  let fresh := fun (p : Piece) => !s.reading cl slot (p.2.1 / 8)
  let req := fun (k : EngKind) (p : Piece) => jobReq s cl slot j k .load p.1 p.2.1 p.2.2.1
  let early ← someOf ((j.missing more).filter fun p => fresh p && !ps.any fun q => q.2.1 / 8 == p.2.1 / 8)
  sendReqs cl (((ps.filter fresh).map fun p => req (.read p.2.2.2) p) ++ early.map (req .ahead))

/-- Send the one perform that writes a job's completion word, value and FULL (R229), or resumes another job (R287); the
engine goes on when it is acknowledged. -/
def sendWord (cl slot : Nat) (j : Job) (kind : EngKind) (v : Word) : M Unit := do
  let s ← getS
  let _ ← sendReqs cl [jobReq s cl slot j kind (.sts v) (.pool j.w.1 j.w.2) (poolKey j.w.1 j.w.2) 8]
  modJob cl slot fun j => { j with out := j.out + 1 }

/-! ### The queue (R227, R232) -/

/-- The reservation of a task whose command has been accepted ends (R232). -/
def endReservation (cl : Nat) (gtid : Word) : M Unit := do
  let c ← getCluster cl
  match c.slots.find? fun x => x.2.job.isNone && (match x.2.res with
    | some (g, _) => g == gtid
    | none => false) with
  | some x => grantSlot cl x.1
  | none => pure ()

/-- QUEUE_RESERVATION_EXPIRY (R232): after 65,536 clocks the slot goes to the next waiter. -/
def execQueueReservationExpiry (cluster slot : Nat) (s : State) : Host.Outcome State Fault Refusal :=
  let q := s.slotOf cluster slot
  match q.res with
  | some (_, t) => if q.job.isNone && t + 65536 ≤ s.clk.toNat then runM (grantSlot cluster slot) s else act s []
  | none => act s []

/-- The jobs of a partition may run: it is neither stopped by its eclipse line (R334) nor being pre-empted (R336). -/
def engineRuns (p : Partition) : Bool := p.eclipse.isNone && p.preempt.isNone

def jobRuns (s : State) (j : Job) : Bool := ((s.part? j.part).map engineRuns).getD false

/-- The job may use its engine: its partition runs, or it has still to come to the boundary it stops at. -/
def Job.served (s : State) (j : Job) : Bool :=
  (jobRuns s j || j.stopping.isSome) && j.st != .ended && j.st != .leaving

/-- The job stands at a boundary of its steps, or is not running (R243, R283, R312). -/
def Job.rests (j : Job) : Bool := j.st != .running || j.edge || j.halting.isSome

/-- The job an engine serves next (R233): the one it is running until that stands at a boundary; then those that end or
stop, which start nothing; then the one it is running, the earliest accepted that is ready again, the earliest that has
not started. -/
def pickJob (s : State) (cl engine : Nat) : Option (Nat × Job) :=
  let c := s.cluster cl
  let mine := (c.order.filterMap fun i => (s.jobOf cl i).map fun j => (i, j)).filter fun x =>
    x.2.engine == engine && x.2.served s
  let first := fun (p : Job → Bool) => mine.find? fun x => p x.2
  match vget none c.current engine with
  | some i =>
    let cur := mine.find? fun x => x.1 == i && x.2.st == .running
    if (cur.map fun x => !x.2.rests).getD false then cur
    else (first fun j => (j.cancel || j.halting.isSome || j.ending.isSome) && j.rests).or cur
  | none =>
    ((first fun j => j.cancel || j.halting.isSome || j.ending.isSome).or (first fun j => j.st == .ready)).or
      (first fun j => j.st == .queued)

/-- The engine turns to a job. -/
def startJob (cl slot engine : Nat) : M Unit := do
  modJob cl slot fun j => { j with st := .running }
  modCluster cl fun c => { c with current := vset c.current engine (some slot) }

/-! ### Endings -/

/-- A job ends: its completion word goes out, and its slot frees in the perform that writes it (R229, R233). -/
def endJob (cl slot : Nat) (result status detail : Nat) : M Unit := do
  match (← getS).jobOf cl slot with
  | none => pure ()
  | some j =>
    modJob cl slot fun j => { j with st := .ended }
    sendWord cl slot j (.word status true) (doneWord result status detail)

/-- A job suspends for software and keeps its slot (R229, R233). -/
def suspendJob (cl slot status detail : Nat) : M Unit := do
  match (← getS).jobOf cl slot with
  | none => pure ()
  | some j =>
    modJob cl slot fun j => { j with st := .leaving }
    sendWord cl slot j (.word status false) (doneWord 0 status detail)

/-- ASID register under which the destination of a CPYX is translated (R240). -/
def Job.dstAsid (j : Job) : Word :=
  let w := field j.desc 32 8
  BitVec.ofNat 64 (field j.desc 24 8 % 4096 +
    (if w.testBit 63 then bits w 47 12 else s1Of j.asid) * 4096)

/-- The ASID a record of a job tells (Table 6 of R215): that of the address, which a CPYX writes in the descriptor's
(R237). -/
def Job.recAsid (j : Job) (write : Bool) : Nat := asidOf (if j.form == (0x30, 4) && write then j.dstAsid else j.asid)

/-- A job waits on a kind-6 record (R233, R216, R377); the record waits when its slot is busy. -/
def waitRecord (cl slot : Nat) (a : Word) (write : Bool) : M Unit := do
  let s ← getS
  match s.jobOf cl slot with
  | none => pure ()
  | some j =>
    leaveJob cl slot j.engine .waitRecord
    modJob cl slot fun j => { j with record := none }
    let r : PendRec := {
      q := recWord (j.recAsid write) write 0 6 0x01, w0 := j.gtid, w1 := jobHandle s cl slot j, w2 := a,
      job := some (slot, (s.slotOf cl slot).gen) }
    let pend := (← getCluster cl).pend
    let posted ← if pend.isEmpty then post cl r false else pure none
    match posted with
    | some loc => modJob cl slot fun j => { j with record := some loc }
    | none => modCluster cl fun c => { c with pend := c.pend ++ [r] }

/-- The record of a critical mismatch an engine met (R210). -/
def engineCritical (cl : Nat) (j : Job) (h a : Word) (write : Bool) : M Unit :=
  postOrWait cl { q := recWord (j.recAsid write) write 0 5 0x10, w0 := j.gtid, w1 := h, w2 := a }

/-! ### Commands (R231) -/

/-- Check a pool range for a context's command: its place, or a fault taken (SPACE, ALIGN, PROT). -/
def poolCheck (core ctx idx : Nat) (a : Word) (n align : Nat) (need : Rights) : M (Option (Nat × Nat)) := do
  let s ← getS
  let c ← getCtx core ctx
  let sn := c.win.snap.core
  let at_ : Option (Nat × Option Nat) := match classify a n with
    | .loc off => some (core, if lpuOk sn.lprot ctx off n need then some off else none)
    | .core id off => (s.phys (s.partOf core) id).map fun k => (k, windowOffset (s.core k).windows (asidOf sn.asid) off n need)
    | _ => none
  match at_ with
  | none => raiseTrap core ctx 0x04 a idx; return none
  | some (k, o) =>
    if a.toNat % align != 0 then raiseTrap core ctx 0x03 a idx; return none
    else match o with
      | none => raiseTrap core ctx 0x02 a idx; return none
      | some off => return some (k, off)

/-- Length of a form's descriptor (R238 to R240, Table 1 of R263, R300). -/
def descLen (op sub : Nat) : Nat :=
  match op, sub with
  | 0x30, _ => 64
  | 0x31, 1 => 96
  | 0x31, 5 => 32
  | 0x31, 7 => 32
  | 0x31, 10 => 16
  | 0x31, _ => 64
  | _, 11 => 16
  | _, _ => 48

/-- CPYX checks its ASIDs at the commit point (R240). -/
def cpyxPriv (c : Ctx) (desc : List Byte) : Bool :=
  !c.task.sup && (field desc 24 8 % 4096 != asidOf c.win.snap.core.asid || (field desc 32 8).testBit 63)

/-- The command waits for a slot (R74): condition 00, wake address D. -/
def waitSlot (core ctx idx : Nat) (d : Word) : M Unit := do
  let t ← now
  let pre := ((← getS).partRec core).preempt.isSome
  modCtx core ctx fun c => { c with wait := some (match c.wait with
    | some w => { w with out := false, expired := w.expired || pre }
    | none => { on := .queue, idx := idx, acc := { idx := idx, ea := d, size := 0 }, start := t, parkAt := t,
                expired := c.regs.wspin == 0 || pre }) }

/-- Acceptance, indivisibly at the queue (R231): the clear of W is part of it, and uses the port of its home (R18). Table 2 of
R67 names no latency for a command: its handle arrives 1 slot after its acceptance (DESIGN CHOICE, log 56). -/
def acceptJob (core ctx idx slot : Nat) (form : Nat × Nat) (args : List Word) (desc : List Byte) (w : Nat × Nat) : M Unit := do
  let s ← getS
  let c ← getCtx core ctx
  let cl := core / 8
  let engine := if form.1 == 0x31 then 0 else if form.1 == 0x32 then 1 else 2
  let j : Job := { engine := engine, desc := desc, gtid := c.task.gtid, core := core, ctx := ctx,
                   asid := c.win.snap.core.asid, part := s.partOf core, form := form, args := args, w := w,
                   clk := s.clk.toNat }
  modCluster cl fun k => { k with
    slots := sset slot { sget {} slot k.slots with gen := (sget {} slot k.slots).gen + 1, job := some j, res := none } k.slots
    order := k.order ++ [slot], lastAccept := core % 8, accepted := some s.clk.toNat }
  syncWrite w.1 w.2 0 false
  holdRange w.1 w.2 8
  if !(w.1 == core && bits (field desc 0 8) 63 60 == 0 && c.examined ctx) then
    homeWatch w.1 w.2 8 false true { id := coreAgent s core ctx c.gen, gtid := c.task.gtid, asid := asidOf c.win.snap.core.asid }
  if engine == 2 then copyTrace cl slot 1 j
  let s ← getS
  modCtx core ctx fun c => { c.onWin fun x => { x with committed := true } with wait := none }
  emitAt core ctx idx (.scalar (jobHandle s cl slot j)) 1
  endReservation cl c.task.gtid

/-- A request of a context's own to a pool: false when a fence answers it with a NACK (R340). -/
def askPool (core ctx k : Nat) : M Bool := do
  if (← getS).nacks (core / 8) k then
    let gen := (← getCtx core ctx).gen
    modNet fun n => { n with umbraNacks := n.umbraNacks ++ [(core, ctx, gen)] }
    return false
  return true

/-- The checks of a command's descriptor address, and the one strong read of it, which goes to its home as an access of the
block and is no commit point yet (R231). -/
def commandRead (core ctx idx : Nat) (i : Inst) : M Unit := do
  let n := descLen (Code.op i.word) (Code.sub i.word)
  let d := (i.tok .a).word
  match ← locate d { size := n, align := 32, need := { r := true }, far := false } with
  | none => pure ()
  | some p =>
    if ← ownWatchAt core ctx idx d n true false then
      addAccess core ctx (mkAccess idx 2 i.word.lsid 0 .strong .desc d n p)

/-- The checks of an engine command once its descriptor has been read, in their order (R231), with the own watch check of the
clear of W, once (R372): the place of W when all have passed. -/
def commandChecks (core ctx idx : Nat) (i : Inst) (desc : List Byte) : M (Option (Nat × Nat)) := do
  let c ← getCtx core ctx
  let w := fieldWord desc 0
  match ← poolCheck core ctx idx w 8 8 { w := true, s := true } with
  | none => return none
  | some at_ =>
    if (Code.op i.word, Code.sub i.word) == (0x30, 4) && cpyxPriv c desc then raiseTrap core ctx 0x11 0 idx; return none
    else if !(← askPool core ctx at_.1) then return none
    else if !i.seen && !(← ownWatchAt core ctx idx w 8 false true) then return none
    else return some at_

/-- The word is an engine command (R231). -/
def commandWord (w : Code) : Bool :=
  (Code.op w == 0x30 && 3 ≤ Code.sub w && Code.sub w ≤ 5) || Code.op w == 0x31 || Code.op w == 0x32

/-- The command of a form has its descriptor, passes its checks and finds a free slot. -/
def State.wouldAccept (s : State) (core ctx idx : Nat) (i : Inst) : Bool :=
  (i.desc.any fun d => ((commandChecks core ctx idx i d).run { s := s }).1.isSome) &&
    (freeSlot (s.cluster (core / 8)) (s.ctx core ctx).task.gtid).isSome

/-- The context waits on a resolve word and no load of its aborted block is out (R217). -/
def Ctx.resolving (c : Ctx) : Bool := c.phase == .after .resolve && !c.loadsOut

/-- A wait whose next attempt may be made; none is made while the eclipse line is up (R334). -/
def Ctx.mayTry (c : Ctx) (p : Partition) : Bool :=
  c.status == .active && p.eclipse.isNone && (c.phase == .run || c.resolving) && (match c.wait with
    | some w => !w.out
    | none => false)

/-- A park slot that is free (R163, R182). -/
def freePark (k : Core) : Option Nat :=
  (List.range (parkSlots k.regs.partw)).find? fun p => !k.pslots.any fun x => x.1 == p

/-- A wait makes its parking attempt now (R74, R181, R186). -/
def State.parksNow (s : State) (core ctx : Nat) : Bool :=
  let c := s.ctx core ctx
  c.mayTry (s.partRec core) && (match c.wait with
    | some w => w.expired && !w.retry && w.parkAt ≤ s.clk.toNat
    | none => false)

/-- The parking attempt of a waiting command finds a free slot now (R231, R232). -/
def State.parkAsks (s : State) (core ctx : Nat) : Bool :=
  let c := s.ctx core ctx
  s.parksNow core ctx && (freePark (s.core core)).isSome && (match c.wait with
    | some w =>
      w.on == .queue && ((c.win.insts[w.idx]?).map fun i => s.wouldAccept core ctx w.idx i).getD false
    | none => false)

/-- A context has a command for the queue in its slot of this clock, not yet taken: one it issues, or one it tries
again. -/
def State.asks (s : State) (core ctx : Nat) : Bool :=
  let c := s.ctx core ctx
  let fires := fun (i : Inst) =>
    commandWord i.word && i.fires i.word.gm (((i.word.info).map formSlots).getD []) == .go
  slotOpen c ctx s.clk.toNat && (match c.wait with
    | some w =>
      w.on == .queue && !w.out && (!w.expired || w.retry) && c.status == .active && c.phase == .run &&
        (s.partRec core).eclipse.isNone && ((c.win.insts[w.idx]?).map fun i => s.wouldAccept core ctx w.idx i).getD false
    | none =>
      let t := applyAll (slotChanges s core ctx) s
      match slotInstr s core ctx with
      | some (idx, _) =>
        (((t.ctx core ctx).win.insts[idx]?).map fun i => fires i && t.wouldAccept core ctx idx i).getD false
      | none => false)

/-- The descriptor of a command of the core has come in and is still to be taken. -/
def State.replyAsks (s : State) (core : Nat) : Bool :=
  s.net.replies.any fun p => p.core == core && p.acc.op == .desc && (match p.body with
    | .bytes bs =>
      let c := s.ctx core p.ctx
      c.gen == p.gen && (c.accs.any fun a => a.key == p.acc.key && !a.dead) &&
        ((c.win.insts[p.acc.idx]?).map fun i => s.wouldAccept core p.ctx p.acc.idx { i with desc := some bs }).getD false
    | _ => false)

/-- The queue accepts another command in this clock: one it has accepted already, or that of a core whose turn comes
first (R227, R232). -/
def State.outranked (s : State) (core : Nat) : Bool :=
  let cl := s.cluster (core / 8)
  cl.accepted == some s.clk.toNat ||
    ((after cl.lastAccept 8).takeWhile (· != core % 8)).any fun k =>
      let k := 8 * (core / 8) + k
      s.asks k (s.clk.toNat % 16) || s.replyAsks k || (List.range 16).any fun x => s.parkAsks k x

/-- A command refused in this clock tries again in its context's next slot (R232): one that waits makes its attempt then,
one that has just read its descriptor is issued again, and does not read it again. -/
def tryAgain (core ctx idx : Nat) : M Unit := do
  let t ← now
  modCtx core ctx fun c => match c.wait with
    | some w => { c with wait := some (if w.expired && !w.retry then { w with parkAt := t + 16 } else w) }
    | none => c.onWin fun w => { w with insts := lmod w.insts idx fun x => { x with issued := false } }

/-- An engine command at its commit point (R231): the read of its descriptor, then its acceptance. -/
def commandGo (core ctx idx : Nat) : M Unit := do
  let c ← getCtx core ctx
  match c.win.insts[idx]? with
  | none => pure ()
  | some i =>
    match i.desc with
    | none => commandRead core ctx idx i
    | some desc =>
      match ← commandChecks core ctx idx i desc with
      | none => pure ()
      | some at_ =>
        modCtx core ctx fun c => c.onWin fun w => { w with insts := lmod w.insts idx fun x => { x with seen := true } }
        let s ← getS
        match freeSlot (s.cluster (core / 8)) c.task.gtid with
        | none => waitSlot core ctx idx (i.tok .a).word
        | some slot =>
          if s.outranked core then tryAgain core ctx idx
          else
            let args := if Code.op i.word == 0x32 then
              [(i.tok .b).word, (i.tok .c).word, BitVec.ofNat 64 (i.word.z.toNat / 2 ^ 20)] else []
            acceptJob core ctx idx slot (Code.op i.word, Code.sub i.word) args desc at_

/-- The descriptor of a command has been read (R231). -/
def descArrived (core ctx : Nat) (a : Access) (bs : List Byte) : M Unit := do
  dropAcc core ctx a.key
  modCtx core ctx fun c => c.onWin fun w => { w with insts := lmod w.insts a.idx fun x => { x with desc := some bs } }
  commandGo core ctx a.idx

/-- REPLY_ARRIVAL (R93). -/
def execReplyArrival (core ctx : Nat) (s : State) : Host.Outcome State Fault Refusal :=
  match s.net.replies.find? fun p => p.core == core && p.ctx == ctx with
  | none => act s []
  | some p =>
    runM (do
      modNet fun n => { n with replies := n.replies.erase p }
      if (s.ctx core ctx).gen != p.gen then stale core
      else match p.body, (s.ctx core ctx).accs.find? fun b => b.key == p.acc.key with
        | .bytes bs, some a => if a.op == .desc && !a.dead then descArrived core ctx a bs else deliverReply core ctx p.acc p.body
        | _, _ => deliverReply core ctx p.acc p.body) s

/-- An engine form in its slot. -/
def command (f : FmtE) (slots : List Slot) (s : State) : Host.Outcome State Fault Refusal :=
  fireM f.gm (targetList f.t) slots true (fun _ _ => commandGo s.cur.core s.cur.ctx s.cur.idx) s

/-! ### The job monad -/

/-- How a run of a job's program comes to a halt. -/
inductive Stop where
  /-- The step is over: a boundary. -/
  | step
  /-- The program waits for requests on their way. -/
  | wait
  | page (a : Word) (write : Bool)
  | poison (a : Word)
  | finish (status detail result : Nat)
  /-- Suspended for software: 0x10 or 0x11. -/
  | suspend (status detail : Nat)
  | uncorr
  | critical (a : Word) (write : Bool)
  /-- A fenced umbra has answered with a NACK (R340). -/
  | nack
  /-- The operation in progress needs words that have not been read; later ones will need the others. -/
  | need (ps more : List Piece)
  /-- The operation in progress waits for the answer of a request of its own kind. -/
  | ask (kind : EngKind) (l : Loc) (n : Nat)
  /-- The job ends with the perform that restarts another: its handle, and the statuses it restarts from (R287, R311). -/
  | resume (h : Nat) (oks : List Nat)
  deriving DecidableEq, Repr

structure EngRun where
  run : Run
  job : Job
  cl : Nat
  slot : Nat
  /-- Answers still to be replayed, and those added in this step, newest first. -/
  left : List (List Nat)
  fresh : List (List Nat) := []

abbrev E := ExceptT Stop (StateM EngRun)

/-- A change or look-up of the machine made by an engine. -/
def onM {α : Type} (m : M α) : E α := do
  let r ← get
  let (a, r') := m.run r.run
  set { r with run := r' }
  return a

def getJob : E Job := do return (← get).job
def setJob (f : Job → Job) : E Unit := modify fun r => { r with job := f r.job }
def modMarks (f : Marks → Marks) : E Unit := setJob fun j => { j with mark := f j.mark }

/-- End the job (R229). -/
def finish {α : Type} (status detail : Nat) : E α := do throw (.finish status detail (← getJob).progress)

/-- An operation the job performs once: its answer is kept, and replayed when the job goes on. One that needs words not
read yet leaves nothing behind but the requests for them, and is performed when they have been answered. Later operations
do not wait for the writes of earlier ones: those to the same bytes take the same channel, which keeps their order
(R190). -/
def prim (live : E (List Nat)) : E (List Nat) := do
  match (← get).left with
  | x :: t =>
    modify fun r => { r with left := t }
    return x
  | [] =>
    let r0 ← get
    let (res, r1) := (ExceptT.run live).run r0
    let done := { r1 with job := { r1.job with temp := [], bad := [], ans := none } }
    match res with
    | .ok x =>
      set { done with fresh := x :: done.fresh }
      return x
    | .error (.need ps more) =>
      let n ← onM (sendReads r0.cl r0.slot r0.job ps more)
      setJob fun j => { j with out := j.out + n }
      throw .wait
    | .error (.ask kind l k) =>
      if !(← onM getS).jobSent r0.cl r0.slot fun e _ => e == kind then
        let n ← onM (do sendReqs r0.cl [jobReq (← getS) r0.cl r0.slot r0.job kind .load l l.key k])
        setJob fun j => { j with out := j.out + n }
      throw .wait
    | .error e =>
      set done
      throw e

/-- The step is over: the job stops here when it comes here for the first time. -/
def boundary : E Unit := do
  match (← get).left with
  | _ :: t => modify fun r => { r with left := t }
  | [] =>
    modify fun r => { r with fresh := [] :: r.fresh }
    throw .step

/-- The end of a step inside a leaf operation (R283). -/
def stepEnd : E Unit := do
  modMarks fun m => { m with step := m.step + 1 }
  boundary

def jobCl : E Nat := do return (← get).cl

/-- Physical core with a local index in the job's cluster (R246). -/
def localCore (i : Nat) : E Nat := do return (← get).cl * 8 + i % 8

def ctxVia (home : Nat) (need : Rights) : E Via := do
  let j ← getJob
  return { cl := (← get).cl, home := home, ctx := j.ctx, part := j.part, asid := j.asid, need := need }

def myAgent : E Agent := do
  let r ← get
  return jobAgent r.run.s r.cl r.slot r.job

/-- Stop for what a list of accesses met. -/
def reachStop (write : Bool) (rs : List Reach) : E Unit := do
  match worst rs with
  | some (.refused a) => finish 0x05 (a.toNat % 2 ^ 24)
  | some (.poison a) => throw (.poison a)
  | some (.critical a) => throw (.critical a write)
  | some .nack => throw .nack
  | some (.absent a) =>
    if ((← onM getS).pager (← jobCl)).isNone then finish 0x05 (a.toNat % 2 ^ 24)
    else throw (.page a write)
  | _ => pure ()

/-- Locations of ranges, each under its own rules; stops when one cannot be reached. -/
def reachAll (write : Bool) (rs : List (Via × Word × Nat)) : E (List (Loc × Nat)) := do
  let parts := rs.flatMap fun x => (pageParts x.2.1 x.2.2).map fun p => (x.1, p.1, p.2)
  let mut out : List (Reach × Nat) := []
  for p in parts do
    out := out ++ [(← onM (reach p.1 p.2.1 p.2.2), p.2.2)]
  reachStop write (out.map (·.1))
  return out.filterMap fun x => match x.1 with
    | .ok l => some (l, x.2)
    | _ => none

/-- The words of these pieces have been read; the operation waits for those that have not (R199). `more` are pieces that
later operations will need, whose reads may go out with them. -/
def fetch (ps : List Piece) (more : List Piece := []) : E Unit := do
  let j ← getJob
  if j.spoilt ps then throw .uncorr
  let m := j.missing ps
  if !m.isEmpty then throw (.need m more)

/-- The answer of an operation performed in one piece at its home. -/
def ask (kind : EngKind) (l : Loc) (n : Nat) : E (List Nat) := do
  let j ← getJob
  if j.bad.contains (l.key / 8) then throw .uncorr
  match j.ans with
  | some a => return a
  | none => throw (.ask kind l n)

/-- Enough for every answer that is replayed and those of one step. -/
def walkFuel : E Nat := do return (← get).left.length + 64

/-- The job suspends here for software when it first comes here, and goes on when it has been restarted (R254, R310). -/
def suspendHere (status detail : Nat) : E Unit := do
  match (← get).left with
  | _ :: t => modify fun r => { r with left := t }
  | [] =>
    if (← getJob).out > 0 then throw .wait
    modify fun r => { r with fresh := [] :: r.fresh }
    throw (.suspend status detail)

/-- Read bytes for the operation in progress; a double-bit error ends the job (R166). -/
def readLoc (l : Loc) (n : Nat) : E (List Byte) := do
  fetch (l.pieces n false)
  return (← getJob).bytesAt false l n

/-- A kept word after bytes have been written from a key up. -/
def patchWord (key : Nat) (bs : List Byte) (w : Nat × Nat) : Nat × Nat :=
  if 8 * w.1 + 8 ≤ key || key + bs.length ≤ 8 * w.1 then w
  else (w.1, ofBytes ((List.range 8).map fun i =>
    if key ≤ 8 * w.1 + i then bs.getD (8 * w.1 + i - key) (BitVec.ofNat 8 (w.2 / 2 ^ (8 * i))) else BitVec.ofNat 8 (w.2 / 2 ^ (8 * i))))

/-- What the engine writes itself shows in the words its jobs hold. -/
def Job.patch (key : Nat) (bs : List Byte) (j : Job) : Job :=
  { j with kept := j.kept.map (patchWord key bs), temp := j.temp.map (patchWord key bs)
           early := j.early.map (patchWord key bs) }

/-- Write an engine's own structures. A diagram space is shared by the DDE jobs that name it (R294). -/
def writeLoc (l : Loc) (bs : List Byte) : E Unit := do
  let r ← get
  let n ← onM (engineSend r.cl r.slot r.job l (bs.map some))
  setJob fun j => { j.patch l.key bs with out := j.out + n }
  if r.job.engine == 1 then
    onM (modCluster r.cl fun c => { c with slots := c.slots.map fun x =>
      (x.1, { x.2 with job := x.2.job.map fun j => if j.engine == 1 then j.patch l.key bs else j }) })

/-- Read bytes of an operand, each word as the job first read it (R255, R294). -/
def readKept (l : Loc) (n : Nat) : E (List Byte) := do
  fetch (l.pieces n true)
  return (← getJob).bytesAt true l n

/-- Bytes at an address under the context's rules, as one operation. -/
def readBytes (home : Nat) (a : Word) (n : Nat) : E (List Byte) := do
  let r ← prim do
    let v ← ctxVia home { r := true }
    let ls ← reachAll false [(v, a, n)]
    fetch (ls.flatMap fun l => l.1.pieces l.2 false)
    let j ← getJob
    return ls.flatMap fun l => (j.bytesAt false l.1 l.2).map (·.toNat)
  return r.map (BitVec.ofNat 8 ·)

/-- Send bytes to locations. -/
def writeParts : List (Loc × Nat) → List Byte → E Unit
  | [], _ => pure ()
  | l :: t, bs => do
    let r ← get
    let n ← onM (engineSend r.cl r.slot r.job l.1 ((bs.take l.2).map some))
    setJob fun j => { j with out := j.out + n }
    writeParts t (bs.drop l.2)

def writeBytes (home : Nat) (a : Word) (bs : List Byte) : E Unit := do
  let _ ← prim do
    let v ← ctxVia home { w := true }
    let ls ← reachAll true [(v, a, bs.length)]
    writeParts ls bs
    return []

/-- The checks of an address a descriptor names (R267 check 2, R302): layout, alignment, rights; a FAR page that cannot
be reached yet is met later. -/
def checkRange (home : Nat) (a : Word) (n align : Nat) (need : Rights) (farOk : Bool) : E Unit := do
  let _ ← prim do
    let v ← ctxVia home need
    let far := bits a.toNat 63 60 == 8
    if (far && !farOk) || a.toNat % align != 0 then finish 0x05 (a.toNat % 2 ^ 24)
    for p in pageParts a n do
      match ← onM (reach v p.1 p.2) with
      | .refused b => finish 0x05 (b.toNat % 2 ^ 24)
      | .critical b => throw (.critical b need.w)
      | .nack => throw .nack
      | _ => pure ()
    return []

/-- A pool word of the engine's own structures, checked against no LPU or window (R267). -/
def ownRead (core off n : Nat) : E Nat := do
  let r ← prim do return [ofBytes (← readKept (.pool core off) n)]
  return r.headD 0

def ownWrite (core off : Nat) (bs : List Byte) : E Unit := do
  let _ ← prim do
    writeLoc (.pool core off) bs
    return []

/-- A little-endian field of the descriptor. -/
def dfield (at_ n : Nat) : E Nat := do return field (← getJob).desc at_ n

/-- The first nonzero byte of a reserved range ends the job with its offset (R230). -/
def zeroBytes (lo hi : Nat) : E Unit := do
  let d := (← getJob).desc
  match ((List.range (hi - lo)).map (lo + ·)).find? fun i => d.getD i 0 != 0 with
  | some i => finish 0x04 i
  | none => pure ()

/-- A job as it stands at the start of a run: what the program rebuilds as it replays is taken back. -/
def Job.fresh (j : Job) : Job :=
  { j with frames := [], owned := [], raised := [], mark := {}, progress := 0, visited := [] }

/-- Run a job's program from its kept answers to its next stop; the job is kept as it then stands. With requests of it out
only a boundary counts as a stop: to any other the job comes again when they are acknowledged (R199). -/
def runJob {α : Type} (prog : E α) (cl slot : Nat) (j : Job) : M (Except Stop α × Job) := do
  let r ← get
  let start : EngRun := { run := r, cl := cl, slot := slot, left := j.log, job := j.fresh }
  let (res, e) := (ExceptT.run prog).run start
  set e.run
  let atEdge := match res with
    | .error .step => true
    | _ => false
  return (if e.job.out > 0 && !atEdge then .error .wait else res,
    { e.job with log := j.log ++ e.fresh.reverse, edge := atEdge })

end Sys2Proof.Machine
end

