-- ==== Sys2Proof/Machine/Sysm.lean ====
section
/-! DEFINITION. The SYSM forms PFILL, PGSTAT and TLBINV (R219 to R223, R378), invalidation with the stores it
re-examines (R213) and those it loses (R201), and the code-cache drop of R48. -/

namespace Sys2Proof.Machine

/-! ### What an invalidation drops (Table 10 of R222) -/

inductive Scope where
  /-- 000: entries of an ASID that cover a VA page. -/
  | page (asid : BitVec 12) (va : Nat)
  /-- 001: every entry of an ASID. -/
  | asid (asid : BitVec 12)
  /-- 010: entries whose stage-2 translation used an IA page. -/
  | ia (ia : Nat)
  /-- 011: every entry of the partition. -/
  | all
  deriving DecidableEq, Repr

/-- Two IAs lie on one page of the size stage 2 gives. -/
def sameIa (big : Bool) (a b : Nat) : Bool := a / (if big then 2 ^ 25 else 2 ^ 16) == b / (if big then 2 ^ 25 else 2 ^ 16)

def Scope.tlb (q : Scope) (e : TlbEntry) : Bool :=
  match q with
  | .page a va => e.asid == a && va / e.size == e.vpage
  | .asid a => e.asid == a
  | .ia i => sameIa e.iaBig i e.ia.toNat
  | .all => true

def Scope.walk (q : Scope) (e : WalkEntry) : Bool :=
  match q with
  | .page a va => !e.stage2 && e.asid == a && va / 2 ^ levelShift e.level == e.idx
  | .asid a => !e.stage2 && e.asid == a
  | .ia i => if e.stage2 then i / 2 ^ levelShift e.level == e.idx else sameIa e.iaBig i e.ia.toNat
  | .all => true

def Scope.far (q : Scope) (f : FarRef) : Bool :=
  let n := if f.big then 2 ^ 25 else 2 ^ 16
  match q with
  | .page a va => f.asid == a && va / n == f.va.toNat / n
  | .asid a => f.asid == a
  | .ia i => sameIa f.iaBig i f.ia.toNat
  | .all => true

def Scope.acc (q : Scope) (part : Nat) (a : Access) : Bool :=
  match a.far with
  | some f => f.part == part && q.far f
  | none => false

/-- Contexts of a partition that State lists: core and context. -/
def State.ctxsOf (s : State) (part : Nat) : List (Nat × Nat) :=
  (s.ctxs.map fun x => (x.1 / 16, x.1 % 16)).filter fun x => s.partOf x.1 == part

/-! ### Re-examined and lost stores (R213, R201) -/

/-- A store of the context that waits on a filling page the invalidation covers. -/
def Scope.waits (q : Scope) (part : Nat) (a : Access) : Bool := a.isStore && !a.dead && !a.pagePresent && q.acc part a

/-- The request of an access, wherever it travels. -/
def Req.isOf (r : Req) (core ctx : Nat) (gen : BitVec 8) (k : Nat × Nat × Nat × Nat) : Bool :=
  r.core == core && r.ctx == ctx && r.gen == gen && r.acc.key == k

def Access.setSt (a : Access) (st : BitVec 2) : Access := { a with far := a.far.map fun f => { f with st := st } }

/-- The page of an access is now present: the access may go on at its PA, wherever it waits. -/
def nowPresent (core ctx : Nat) (k : Nat × Nat × Nat × Nat) : M Unit := do
  let gen := (← getCtx core ctx).gen
  modAcc core ctx k fun a => a.setSt 2
  let up := fun (r : Req) => if r.isOf core ctx gen k then { r with acc := r.acc.setSt 2 } else r
  modNet fun n => { n with channels := n.channels.map fun x => (x.1, x.2.1, up x.2.2),
                           homes := n.homes.map fun x => (x.1, up x.2) }
  modCluster (core / 8) fun c => { c with replay := c.replay.map up }

/-- Take an access out of everything that holds it. -/
def discardAcc (core ctx : Nat) (k : Nat × Nat × Nat × Nat) : M Unit := do
  let gen := (← getCtx core ctx).gen
  dropAcc core ctx k
  modNet fun n => { n with channels := n.channels.filter fun x => !x.2.2.isOf core ctx gen k,
                           homes := n.homes.filter fun x => !x.2.isOf core ctx gen k }
  modCluster (core / 8) fun c => { c with replay := c.replay.filter fun r => !r.isOf core ctx gen k }

/-- The store with the lowest address. -/
def lowestEa (l : List Access) : Option Access :=
  l.foldl (fun b a => match b with
    | some x => if a.ea.toNat < x.ea.toNat then some a else some x
    | none => some a) none

/-- A park that has not been completed, or a wait on a resolve word, is given up: its block is the next to start. -/
def unpark (core ctx : Nat) : M Unit := do
  let c ← getCtx core ctx
  match c.phase, c.wait with
  | .parkDrain p, _ =>
    let k ← getCore core
    match k.pslots.find? fun x => x.1 == p with
    | some (_, ps) =>
      dropWakes ps.home fun e => e.core == core && e.pslot == p && e.gen == c.gen
      freeSlotOf core p
      modCtx core ctx fun c => { c with phase := .fetch ps.blk 0 }
    | none => pure ()
  | .after .resolve, some w =>
    match w.on with
    | .resolve _ _ _ blk _ => modCtx core ctx fun c => { c with phase := .fetch blk 0, wait := none }
    | _ => pure ()
  | _, _ => pure ()

/-- A store that an abort cannot take back: in the drain queue, or of a block past its commit point. -/
def Ctx.bound (c : Ctx) (a : Access) : Bool :=
  a.st == .drain || (a.st == .window && a.isStore && a.blk == c.blk && c.phase == .run && c.win.committed)

/-- Stores are lost (R201): they go, with the first strong store behind the first of them that an abort cannot take back,
and every store behind that; an executing block with a strong access aborts; the handler is owed, TADDR being the lowest
address of the stores that stood in the replay queue, of other relaxed ones where none did. Of two losses before
the context's next block the first tells TADDR and TIDX, whatever the later one would: R201 speaks of one loss (DESIGN
CHOICE, log 55). -/
def loseStores (core ctx : Nat) (bad : List Access) : M Unit := do
  match bad with
  | [] => pure ()
  | b :: _ =>
    for a in bad do discardAcc core ctx a.key
    let c ← getCtx core ctx
    match c.accs.find? fun a => a.cls == .strong && c.bound a && keyLt b.key a.key with
    | some x =>
      modCtx core ctx fun c => { c with accs := c.accs.filter fun a => !(c.bound a && !keyLt a.key x.key) }
    | none => pure ()
    let relaxed := bad.filter fun a => a.cls == .relaxed
    let owed := match (lowestEa (relaxed.filter fun a => a.st == .replay)).or (lowestEa relaxed) with
      | some a => (a.ea, (66 : BitVec 7))
      | none => (b.ea, 67)
    modCtx core ctx fun c => { c with lost := c.lost.or (some owed) }
    let c ← getCtx core ctx
    if c.running && c.accs.any fun a => a.blk == c.blk && a.cls == .strong && !a.dead then
      abort core ctx (.fetch c.win.addr 0)
    unpark core ctx
    goOn core ctx

/-- Look again at the stores of a context that wait on a page an invalidation covers (R213). A walk that fails, at a stage,
at a table page or at a critical leaf, counts as an absent page: R213 names present, poisoned and absent pages only (DESIGN
CHOICE, log 55). -/
def reexamine (part : Nat) (q : Scope) (core ctx : Nat) : M Unit := do
  let c ← getCtx core ctx
  let mut bad : List Access := []
  for a in c.accs.filter (q.waits part) do
    match a.far with
    | none => pure ()
    | some f =>
      let st ← match ← walk (core / 8) part f.asid f.s1root.toNat f.va.toNat with
        | .ok e => pure e.st.toNat
        | _ => pure 0
      if st == 2 then nowPresent core ctx a.key
      else if st != 1 then bad := bad ++ [a]
  loseStores core ctx bad

/-! ### Invalidation (R223) -/

/-- Engines' requests on their way that an invalidation covers. -/
def Net.engineRefs (n : Net) (part : Nat) (q : Scope) : List AccRef :=
  ((n.channels.map (·.2.2) ++ n.homes.map (·.2)).filter fun r => r.eng.isSome && q.acc part r.acc).map fun r =>
    { core := r.core, ctx := 16, gen := 0, key := (r.acc.blk, 0, 0, 0) }

/-- Apply an invalidation in every cluster of a partition: entries drop, uncommitted blocks that used them abort, all but
that of `self`, waiting stores are looked at again. Answers the accesses still to be performed, engines' requests among
them. -/
def invalidate (part : Nat) (q : Scope) (self : Option (Nat × Nat)) : M (List AccRef) := do
  let map := (((← getS).part? part).getD {}).map
  for cl in map do
    modCluster cl fun c => { c with
      tlb := c.tlb.filter fun e => !(e.part == part && q.tlb e)
      walk := c.walk.filter fun e => !(e.part == part && q.walk e) }
  let all := (← getS).ctxsOf part
  for x in all do
    let c ← getCtx x.1 x.2
    if self != some x && c.phase == .run && c.win.trans.any fun f => f.part == part && q.far f then
      if c.win.committed then modCtx x.1 x.2 fun c => c.onWin fun w => { w with doomed := true }
      else abort x.1 x.2 (.fetch c.win.addr 0)
  for x in all do reexamine part q x.1 x.2
  let s ← getS
  return (all.flatMap fun x =>
    let c := s.ctx x.1 x.2
    (c.accs.filter fun a => q.acc part a && a.st != .acked && !q.waits part a &&
      !(self == some x && a.st == .window)).map fun a => { core := x.1, ctx := x.2, gen := c.gen, key := a.key }) ++
    s.net.engineRefs part q

/-- Every cluster drops the code-cache lines of a physical page (R48). -/
def dropCodePage (pa : Nat) : M Unit := do
  for x in (← getS).clusters do
    modCluster x.1 fun c => { c with code := c.code.filter fun l => l.line / 1024 != pa / 65536 }

/-! ### The forms -/

/-- The scope an operand of TLBINV selects; none for a reserved scope or bits it does not use (R222). -/
def scopeOf (a : Word) (asid : BitVec 12) : Option Scope :=
  match wbitsOf a 59 57 with
  | 0 => some (.page asid (wbitsOf a 56 0))
  | 1 => if wbitsOf a 56 0 == 0 then some (.asid asid) else none
  | 2 => if wbitsOf a 56 48 == 0 then some (.ia (wbitsOf a 47 0)) else none
  | 3 => if wbitsOf a 56 0 == 0 then some .all else none
  | _ => none

/-- TLBINV (R222, R223). -/
def execTlbinv (f : FmtM) (s : State) : Host.Outcome State Fault Refusal :=
  fireM f.gm [] [.a] true (fun i w => do
    let a := ea (i.tok .a).word (memOffset f false)
    if !s.curCtx.task.sup then raise 0x11 0
    else if wbitsOf a 63 60 != 8 then raise 0x04 a
    else match scopeOf a (BitVec.ofNat 12 (asidOf w.snap.core.asid)) with
      | none => raise 0x04 a
      | some q =>
        markCommitted
        let l ← invalidate (s.partOf s.cur.core) q (some (s.cur.core, s.cur.ctx))
        addAccess s.cur.core s.cur.ctx
          { idx := s.cur.idx, rank := 2, lsid := f.lsid.toNat, cls := .strong, op := .tlbinv l, ea := a, size := 0,
            addr := noKey, home := .pool s.cur.core }) s

/-- PGSTAT (R221): a plain place in access order, without an access at a home. -/
def execPgstat (f : FmtM) (s : State) : Host.Outcome State Fault Refusal :=
  fireM f.gm (targetList f.t) [.a] false (fun i _ => do
    let a := ea (i.tok .a).word (memOffset f false)
    match classify a 1 with
    | .far _ =>
      addAccess s.cur.core s.cur.ctx
        { idx := s.cur.idx, lsid := f.lsid.toNat, cls := .plain, op := .pgstat, ea := a, size := 0, addr := noKey,
          home := .pool s.cur.core }
    | _ => raise 0x04 a) s

/-- A kind-4 record of this slot is unresolved: its w3 is EMPTY (R378). -/
def hintOpen (s : State) (cl h : Nat) : Bool :=
  match s.pager cl with
  | some (k, off) => !(s.syncOf (poolKey k ((recSlot (k, off) h).2 + 24) / 8)).getLsbD 0
  | none => false

/-- Post the hint of a page, or drop and count it (R216, R390): dropped too while older records of the cluster wait to be posted
(DESIGN CHOICE, log 56). -/
def postHint (cl page : Nat) (a blk : Word) (asid : Nat) : M Unit := do
  let c ← getCluster cl
  let r : PendRec := { q := recWord asid false 0 4 0x00, w0 := 0, w1 := blk, w2 := a }
  let posted ← if c.pend.isEmpty then post cl r false else pure none
  match posted with
  | some _ => modCluster cl fun x => { x with hints := x.hints ++ [(c.h.toNat, page)] }
  | none => modCluster cl fun x => { x with dropped4 := x.dropped4 + 1 }

/-- The walk and post of a PFILL (R220). A walk that fails its critical double read for good posts nothing and has no effect:
R220 rules out kinds 1 to 3 only, and R210 tells of accesses and fetches (DESIGN CHOICE, log 55). -/
def pfillWalk (core : Nat) (f : OwedFill) : M Unit := do
  match classify f.addr 1 with
  | .far va =>
    let cl := core / 8
    let asid := asidOf f.asid
    match ← walk cl ((← getS).partOf core) (BitVec.ofNat 12 asid) (s1Of f.asid) va with
    | .ok e =>
      if e.st == 0 then
        let page := asid * 2 ^ 57 + va / e.size * e.size
        let s ← getS
        if !((s.cluster cl).hints.any fun h => h.2 == page && hintOpen s cl h.1) then postHint cl page f.addr f.blk asid
    | _ => pure ()
  | _ => pure ()

/-- PFILL (R220): never faults, emits nothing. -/
def execPfill (f : FmtM) (s : State) : Host.Outcome State Fault Refusal :=
  fireM f.gm [] [.a] false (fun i w => do
    let o : OwedFill := { addr := ea (i.tok .a).word (memOffset f false), asid := w.snap.core.asid, blk := w.addr,
                          at_ := s.clk.toNat }
    if f.rx then modCtx s.cur.core s.cur.ctx fun c => { c with pfills := c.pfills ++ [o] }
    else pfillWalk s.cur.core o
    emitCur [] .null 1) s

/-- PFILL_RELAXED_WALK (R220): the oldest walk still owed. -/
def execPfillRelaxedWalk (core ctx : Nat) (s : State) : Host.Outcome State Fault Refusal :=
  match (s.ctx core ctx).pfills with
  | [] => act s []
  | o :: t => runM (do
      modCtx core ctx fun c => { c with pfills := t }
      pfillWalk core o) s

end Sys2Proof.Machine
end

