-- ==== Sys2Proof/Machine/Copy.lean ====
section
/-! DEFINITION. The copy engine (R237 to R244): CPY and CPYS by frames, CPYX by chunks, the ZRL format. -/

namespace Sys2Proof.Machine

/-! ### Descriptors -/

def Job.src (j : Job) : Word := fieldWord j.desc 8
def Job.dst (j : Job) : Word := fieldWord j.desc 16

/-- Offset of the first nonzero byte of a range. -/
def firstNonzero (d : List Byte) (lo hi : Nat) : Option Nat :=
  ((List.range (hi - lo)).map (lo + ·)).find? fun i => d.getD i 0 != 0

/-- The first nonzero byte of a little-endian number's bits from `lo` up, as an offset from its byte 0. -/
def firstBitByte (v lo : Nat) : Option Nat :=
  (firstNonzero (bytesOf 8 (v / 2 ^ lo * 2 ^ lo)) 0 8)

/-- Fields of a CPYS (Table 5). -/
def Job.rb (j : Job) : Nat := field j.desc 24 4
def Job.rows (j : Job) : Nat := field j.desc 28 4
def Job.mask (j : Job) : Nat := field j.desc 40 4
def Job.esz (j : Job) : Nat := field j.desc 44 4 % 4

/-- The offending byte of a CPY or CPYS descriptor (R230, R238, R239). -/
def copyBad (j : Job) : Option Nat :=
  if j.form.2 == 3 then firstNonzero j.desc 28 64
  else if j.rb == 0 then some 24
  else match (firstBitByte (field j.desc 40 8) 34).map (40 + ·) with
    | some i => some i
    | none => match firstNonzero j.desc 48 64 with
      | some i => some i
      | none =>
        if j.mask == 0 then none
        else if j.rb > 4096 || 2 ^ j.rb.log2 != j.rb then some 24
        else if j.mask ≥ j.rb || j.mask % 2 ^ j.esz != 0 then some 40
        else none

/-- Number of frames (R243). -/
def Job.frameCount (j : Job) : Nat :=
  if j.form.2 == 3 then (field j.desc 24 4 + 4095) / 4096 else if j.form.2 == 5 then j.rows else 16

/-- Bytes of the first F frames. -/
def Job.frameBytes (j : Job) (f : Nat) : Nat :=
  if j.form.2 == 3 then min (field j.desc 24 4) (4096 * f)
  else if j.form.2 == 5 then min (f * j.rb) 0xFFFFFFFF
  else 4096 * f

/-- A frame: source address, destination address, bytes, and what byte o of the source is XORed with for its place. -/
structure Frame where
  src : Word
  dst : Word
  n : Nat
  swizzle : Nat := 0

/-- Frame f of a CPY or CPYS, f from 0. -/
def Job.frame (j : Job) (f : Nat) : Frame :=
  if j.form.2 == 3 then
    { src := j.src + BitVec.ofNat 64 (4096 * f), dst := j.dst + BitVec.ofNat 64 (4096 * f),
      n := min 4096 (field j.desc 24 4 - 4096 * f) }
  else
    { src := j.src + BitVec.ofNat 64 (f * field j.desc 32 4), dst := j.dst + BitVec.ofNat 64 (f * field j.desc 36 4),
      n := j.rb, swizzle := pdep f j.mask }

/-- The address lies in the source range of a CPY. -/
def Job.inSrc (j : Job) (a : Nat) : Bool := j.src.toNat ≤ a && a < j.src.toNat + field j.desc 24 4

/-! ### Accesses -/

/-- A range cut into accesses: a FAR range at its 64 KiB pages, a pool range at the 64-byte blocks its port serves (R161,
R227). -/
def copyParts (a : Word) (n : Nat) : List (Word × Nat) :=
  if bits a.toNat 63 60 == 8 || n == 0 then pageParts a n
  else
    let first := 64 - a.toNat % 64
    if n ≤ first then [(a, n)]
    else (a, first) :: (List.range ((n - first + 63) / 64)).map fun i =>
      (a + BitVec.ofNat 64 (first + 64 * i), min 64 (n - first - 64 * i))

def copyVia (cl : Nat) (j : Job) (write : Bool) : Via :=
  { cl := cl, home := j.core, ctx := j.ctx, part := j.part, asid := j.asid,
    need := if write then { w := true } else { r := true }, fillOk := write }

/-- Where the parts of a range stand. -/
def reachParts (v : Via) (l : List (Word × Nat)) : M (List (Word × Nat × Reach)) := do
  let mut out : List (Word × Nat × Reach) := []
  for p in l do out := out ++ [(p.1, p.2, ← reach v p.1 p.2)]
  return out

/-- Send words given to places (R199, R237: the synchronising state is kept); the second trace record comes with the first
destination write (R244). -/
def copySend (cl slot : Nat) (ws : List (Loc × Nat × List (Option Byte))) : M Unit := do
  match (← getS).jobOf cl slot with
  | some j =>
    let ws := ws.filter fun x => x.2.2.any (·.isSome)
    if !ws.isEmpty then
      if !j.first then copyTrace cl slot 2 j
      let s ← getS
      let n ← sendReqs cl (ws.map fun x => jobReq s cl slot j .write (.store x.2.2) x.1 x.2.1 x.2.2.length)
      modJob cl slot fun j => { j with first := true, out := j.out + n }
      countCluster cl 0x49 (ws.foldl (fun a x => a + (x.2.2.filter (·.isSome)).length) 0)
  | none => pure ()

/-! ### Ends of copy jobs -/

/-- End a copy job early with the RESULT of R237, the bytes of its leading complete frames. -/
def copyEnd (cl slot status detail : Nat) : M Unit := do
  match (← getS).jobOf cl slot with
  | some j => endJob cl slot (j.frameBytes j.done) status detail
  | none => pure ()

/-- An end whose RESULT no entry states (log 14). -/
def copyEndOpen (cl slot status detail : Nat) : M Unit := do endJob cl slot (ofBytes (← freeBytes 4)) status detail

/-- End for data with a double-bit error, RESULT and DETAIL open (log 14). -/
def copyEndUncorr (cl slot : Nat) : M Unit := do copyEndOpen cl slot 0x06 (ofBytes (← freeBytes 3))

/-- What a copy job does when accesses of a frame cannot be made (R237, R390). -/
def copyStop (cl slot : Nat) (write : Bool) (rs : List Reach) : M Unit := do
  modJob cl slot fun j => { j with temp := [], bad := [], sent := [] }
  let s ← getS
  match worst rs, s.jobOf cl slot with
  | some (.refused a), _ => copyEnd cl slot 0x05 (a.toNat % 2 ^ 24)
  | some (.poison _), _ => copyEnd cl slot 0x12 (0x12 * 2 ^ 16)
  | some (.critical a), some j =>
    engineCritical cl j (jobHandle s cl slot j) a write
    copyEndUncorr cl slot
  | some .nack, _ => loseJob cl slot
  | some (.absent a), _ =>
    if (s.pager cl).isNone then copyEnd cl slot 0x05 (a.toNat % 2 ^ 24) else waitRecord cl slot a write
  | _, _ => pure ()

/-! ### CPY and CPYS -/

/-- The old value of an overlap byte that a CPY has overwritten (R238). -/
def savedByte (saved : List (Nat × Byte)) (a : Nat) (b : Byte) : Byte :=
  match saved.find? fun x => x.1 == a with
  | some x => x.2
  | none => b

/-- The words of the parts that can be reached. -/
def partPieces (ps : List (Word × Nat × Reach)) : List Piece :=
  ps.flatMap fun p => match p.2.2 with
    | .ok l => l.pieces p.2.1 false
    | _ => []

/-- The bytes of parts as the job has read them: none where a word has not been read, or its part cannot be reached. -/
def Job.partBytes (j : Job) (ps : List (Word × Nat × Reach)) : List (Option Byte) :=
  ps.flatMap fun p => match p.2.2 with
    | .ok l =>
      let bs := j.bytesAt false l p.2.1
      (List.range p.2.1).map fun i => if (j.word? false ((l.key + i) / 8)).isSome then bs[i]? else none
    | _ => List.replicate p.2.1 none

/-- A word of a frame's destination: its place, key, and the bytes of the frame it takes, from the first on. -/
structure DstWord where
  loc : Loc
  key : Nat
  at_ : Nat
  n : Nat
  deriving DecidableEq, Repr

/-- The destination words that can be reached; `at_` is where the first part begins in the frame. -/
def dstWords : Nat → List (Word × Nat × Reach) → List DstWord
  | _, [] => []
  | at_, (_, n, r) :: t => (match r with
    | .ok l => (wordSpans l.key n).map fun x => { loc := l, key := x.1, at_ := at_ + (x.1 - l.key), n := x.2 }
    | _ => []) ++ dstWords (at_ + n) t

/-- What a destination byte of a CPY receives: outside the overlap of the ranges its source byte, from before the copy; in
the overlap nothing or its source byte, which one being open (R238, log 15). Ranges overlap by the addresses the descriptor
gives (DESIGN CHOICE, log 56). A byte of a CPYS receives its source byte as it has been read. -/
def copyByte (j : Job) (dstAddr srcAddr : Nat) (b : Byte) : M (Option Byte) := do
  if j.form.2 == 3 then
    let b := savedByte j.saved srcAddr b
    if j.inSrc dstAddr then
      let c ← freeBytes 1
      return if (c.headD 0).getLsbD 0 then some b else none
    else return some b
  else return some b

/-- The bytes of a destination word, whose source bytes have been read. -/
def wordData (j : Job) (f : Frame) (data : List (Option Byte)) (w : DstWord) : M (List (Option Byte)) := do
  let mut out : List (Option Byte) := []
  for i in List.range w.n do
    let o := (w.at_ + i) ^^^ f.swizzle
    match data.getD o none with
    | some b => out := out ++ [← copyByte j (f.dst.toNat + w.at_ + i) (f.src.toNat + o) b]
    | none => out := out ++ [none]
  return out

/-- Send destination words of a frame; a CPY keeps the old bytes of its source that they overwrite (R238). -/
def sendDst (cl slot : Nat) (j : Job) (f : Frame) (data : List (Option Byte)) (ws : List DstWord) : M Unit := do
  let mut out : List (Loc × Nat × List (Option Byte)) := []
  let mut saved : List (Nat × Byte) := []
  for w in ws do
    out := out ++ [(w.loc, w.key, ← wordData j f data w)]
    if j.form.2 == 3 then
      let old ← peek w.key w.n
      saved := saved ++ ((List.range w.n).map fun i => (f.dst.toNat + w.at_ + i, old.getD i 0)).filter fun x =>
        j.inSrc x.1 && !j.saved.any fun y => y.1 == x.1
  modJob cl slot fun j => { j with saved := j.saved ++ saved, sent := j.sent ++ ws.map (·.key), edge := false }
  copySend cl slot out

/-- A frame some access of which cannot be made: the stop. -/
def frameStop (cl slot : Nat) (src dst : Option Reach) : M Unit :=
  match src, dst with
  | some (.absent a), some (.absent b) => copyStop cl slot (b.toNat < a.toNat) [.absent a, .absent b]
  | some (.absent _), some x => copyStop cl slot true [x]
  | some x, _ => copyStop cl slot false [x]
  | none, some x => copyStop cl slot true [x]
  | none, none => pure ()

/-- Source words of a later frame, where the free values pick one (R199). A job that is to stop starts none (R243). -/
def laterWords (cl : Nat) (j : Job) : M (List Piece) := do
  let n := j.frameCount - j.done - 1
  let b ← freeBytes 5
  if n == 0 || j.cancel || j.stopping.isSome || !(b.headD 0).getLsbD 0 then return []
  let f := j.frame (j.done + 1 + ofBytes (b.drop 1) % n)
  return partPieces (← reachParts (copyVia cl j false) (copyParts f.src f.n))

/-- A frame has been copied. -/
def frameDone (cl slot : Nat) (f : Frame) (used : List Nat) : M Unit := do
  countCluster cl 0x48 (max 1 ((f.n + 63) / 64))
  modJob cl slot fun j => { j with
    done := j.done + 1, sent := [], temp := [], edge := true, early := j.early.filter fun x => !used.contains x.1 }

/-- One step of a frame. Its reads and writes go out word by word in any order, those whose bytes have been read, and reads
of later frames with them, which the free values pick (R199); without requests out it sends what it can. It is over when
they have been acknowledged. When some access of it cannot be made, which of its other bytes are written is open (R237), and
the job stops once those that were sent have been performed. -/
def copyFrame (cl slot : Nat) (j : Job) (f : Frame) : M Unit := do
  let src ← reachParts (copyVia cl j false) (copyParts f.src f.n)
  let dst ← reachParts (copyVia cl j true) (copyParts f.dst f.n)
  let stop := fun (l : List (Word × Nat × Reach)) => worst (l.map fun x => x.2.2)
  let bad := (stop src).isSome || (stop dst).isSome
  let need := partPieces src
  let s ← getS
  let miss := (j.missing need).filter fun p => !s.reading cl slot (p.2.1 / 8)
  let data := j.partBytes src
  let ws := (dstWords 0 dst).filter fun w => !j.sent.contains w.key
  let ready := ws.filter fun w => (List.range w.n).all fun i => (data.getD ((w.at_ + i) ^^^ f.swizzle) none).isSome
  let settled := miss.isEmpty && ready.isEmpty
  let pick ← freeBytes 1
  if j.out == 0 && j.spoilt need then copyEndUncorr cl slot
  else if j.out == 0 && bad && (settled || !(pick.headD 0).getLsbD 0) then frameStop cl slot (stop src) (stop dst)
  else if j.out == 0 && !bad && settled then frameDone cl slot f (need.map fun p => p.2.1 / 8)
  else
    let writes ← if j.out == 0 && miss.isEmpty then pure ready else someOf ready
    sendDst cl slot j f data writes
    let picked ← someOf miss
    let reads := if j.out == 0 && writes.isEmpty && picked.isEmpty then miss else picked
    match (← getS).jobOf cl slot with
    | some j =>
      let n ← sendReads cl slot j reads (← laterWords cl j)
      modJob cl slot fun j => { j with out := j.out + n, edge := false }
    | none => pure ()

/-- Write ST = 11 to the destination's stage-2 leaf and apply the invalidation of TLBINV scope 000 to the page (R212,
R242): the accesses it waits for (R223). -/
def poisonDst (cl : Nat) (j : Job) : M (List AccRef) := do
  let va := j.dst.toNat % 2 ^ 57
  let asid := BitVec.ofNat 12 (asidOf j.dstAsid)
  match ← walk1Again cl j.part asid (s1Of j.dstAsid) va 2 with
  | .leaf v level _ =>
    match ← stage2 cl j.part (leafBase v level + va % leafSize level) with
    | some x => poke64 (farKey x.at_) (x.v ||| 0x6000000000000000)
    | none => pure ()
  | .fail _ => pure ()
  invalidate j.part (.page asid va) none

/-- A CPYX that fails or is cancelled poisons its page, and ends once the invalidation has been performed (R242, R223). -/
def poisonEnd (cl slot : Nat) (j : Job) (detail status : Nat) : M Unit := do
  match j.inv with
  | none =>
    let l ← poisonDst cl j
    modJob cl slot fun j => { j with inv := some l }
  | some l => if !l.any (← getS).owed then endJob cl slot 0 status detail

/-- A copy job ends as cancelled (R243). -/
def cancelCopy (cl slot : Nat) (j : Job) : M Unit := do
  modJob cl slot fun j => { j with cancel := true }
  if j.form.2 == 4 then
    if j.st == .queued then endJob cl slot 0 0x02 0 else poisonEnd cl slot j 0 0x02
  else copyEnd cl slot 0x02 0

/-- A copy job that is cancelled or stopped at the end of its frames in progress (R243), once its requests have been
acknowledged (R199). -/
def copyRest (cl slot : Nat) (j : Job) : M Unit := do
  if j.out > 0 then pure ()
  else if j.cancel then cancelCopy cl slot j
  else leaveStopped cl slot 2

/-- The job is to come to rest, and stands at a boundary. -/
def Job.resting (j : Job) : Bool := j.rests && (j.cancel || (j.stopping.isSome && j.inv.isNone))

/-- COPY_FRAME (R243): a step of a frame of the copy engine's job, or its end, or its stop. -/
def execCopyFrame (cluster : Nat) (s : State) : Host.Outcome State Fault Refusal :=
  match pickJob s cluster 2 with
  | none => act s []
  | some (slot, j) =>
    if j.resting then runM (copyRest cluster slot j) s
    else if j.form.2 == 4 then act s []
    else runM (do
      startJob cluster slot 2
      match if j.done == 0 && j.out == 0 && j.sent.isEmpty then copyBad j else none with
      | some i => copyEndOpen cluster slot 0x04 i
      | none =>
        if j.frameCount ≤ j.done then
          if j.out == 0 then endJob cluster slot (j.frameBytes j.done) 0x00 0
        else copyFrame cluster slot j (j.frame j.done)) s

/-- CPY (R238). -/
def execCpy (f : FmtE) (s : State) : Host.Outcome State Fault Refusal := command f [.a] s
/-- CPYS (R239). -/
def execCpys (f : FmtE) (s : State) : Host.Outcome State Fault Refusal := command f [.a] s
/-- CPYX (R240). -/
def execCpyx (f : FmtE) (s : State) : Host.Outcome State Fault Refusal := command f [.a] s

/-! ### ZRL (R241) -/

/-- Expand a body into exactly E bytes: each token in turn, none for an overrun or underrun. -/
def expand : Nat → List Byte → List Byte → Nat → Option (List Byte)
  | 0, _, _, _ => none
  | _ + 1, [], out, e => if out.length == e then some out else none
  | fuel + 1, t :: rest, out, e =>
    let n := t.toNat
    if n < 0x80 then
      let out := out ++ List.replicate (n + 1) 0
      if out.length > e then none else expand fuel rest out e
    else
      let k := n - 0x7F
      if rest.length < k then none
      else
        let out := out ++ rest.take k
        if out.length > e then none else expand fuel (rest.drop k) out e

/-- One byte of the CRC-32 of IEEE 802.3, reflected. -/
def crcByte (c : BitVec 32) (b : Byte) : BitVec 32 :=
  (List.range 8).foldl (fun c _ => if c.getLsbD 0 then (c >>> 1) ^^^ 0xEDB88320 else c >>> 1) (c ^^^ b.setWidth 32)

def crc32 (bs : List Byte) : BitVec 32 := bs.foldl crcByte 0xFFFFFFFF ^^^ 0xFFFFFFFF

/-- The BF16 value of an E4M3 byte (R131, R241): exact; the two NaNs become 0x7FC0 and 0xFFC0. -/
def widen (b : Byte) : Nat :=
  let s := b.toNat / 128 * 32768
  let e := b.toNat / 8 % 16
  let m := b.toNat % 8
  if b.toNat % 128 == 0x7F then s + 0x7FC0
  else if e == 0 then
    if m == 0 then s
    else
      let k := m.log2
      s + (k + 118) * 128 + (m - 2 ^ k) * 2 ^ (7 - k)
  else s + (e + 120) * 128 + m * 16

/-! ### CPYX (R240, R242) -/

/-- E: bytes a chunk expands to. -/
def Job.widens (j : Job) : Bool := (field j.desc 24 8).testBit 12

/-- The offending byte of a CPYX descriptor. -/
def cpyxBad (j : Job) : Option Nat :=
  let w := field j.desc 32 8
  if !w.testBit 63 && field j.desc 24 8 % 4096 != asidOf j.asid then some 24
  else if bits j.src.toNat 63 60 != 8 then some 8
  else if bits j.dst.toNat 63 60 != 8 || j.dst.toNat % 65536 != 0 then some 16
  else match (firstBitByte (field j.desc 24 8) 13).map (24 + ·) with
    | some i => some i
    | none =>
      match firstNonzero (bytesOf 8 (bits w 11 0 + bits w 62 48 * 2 ^ 48)) 0 8 with
      | some i => some (32 + i)
      | none => firstNonzero j.desc 40 64

/-- Leading chunks that have ended in success (R243). -/
def Job.leading (j : Job) : Nat :=
  ((List.range 17).find? fun i => (sget 1 i j.chunks) != 0 || i == 16).getD 16

/-- The checks a CPYX makes before its first chunk (R240); true when it goes on. -/
def cpyxCheck (cl slot : Nat) (j : Job) : M Bool := do
  match cpyxBad j with
  | some i => copyEndOpen cl slot 0x04 i; return false
  | none =>
    let reg := j.dstAsid
    match classify j.dst 1 with
    | .far va =>
      match ← walk cl j.part (BitVec.ofNat 12 (asidOf reg)) (s1Of reg) va with
      | .ok e => if e.st == 1 then return true else copyEnd cl slot 0x05 (j.dst.toNat % 2 ^ 24); return false
      | .critical _ =>
        engineCritical cl j (jobHandle (← getS) cl slot j) j.dst true
        copyEndUncorr cl slot
        return false
      | _ => copyEnd cl slot 0x05 (j.dst.toNat % 2 ^ 24); return false
    | _ => copyEnd cl slot 0x05 (j.dst.toNat % 2 ^ 24); return false

/-- What reading a piece of the image meets. -/
inductive Image where
  | data (bs : List Byte)
  /-- Poisoned, or refused at the source: reason 4. -/
  | unreadable
  /-- The reads are on their way, or the job has stopped or ended. -/
  | stopped
  deriving DecidableEq, Repr

/-- Read n bytes of the image for a chunk; the job stops for a page once its requests have been acknowledged. -/
def readImage (cl slot chunk : Nat) (j : Job) (a : Word) (n : Nat) : M Image := do
  modJob cl slot fun j => { j with chunk := chunk }
  let ps ← reachParts (copyVia cl j false) (pageParts a n)
  match worst (ps.map fun x => x.2.2) with
  | some (.refused _) | some (.poison _) => return .unreadable
  | some x =>
    if j.out == 0 then copyStop cl slot false [x]
    return .stopped
  | none =>
    let need := partPieces ps
    let miss := j.missing need
    if j.spoilt need then return .unreadable
    else if !miss.isEmpty then
      let n ← sendReads cl slot j miss []
      modJob cl slot fun j => { j with out := j.out + n }
      return .stopped
    else return .data ((j.partBytes ps).map (·.getD 0))

/-- The outcome of a chunk. -/
inductive Chunk where
  | ok (bs : List Byte)
  | fail (reason : Nat)
  | stopped
  deriving DecidableEq, Repr

/-- Expand chunk i (R241, Table 7 of R242). A body longer than 2·E bytes cannot end at E. -/
def expandChunk (cl slot i : Nat) (j : Job) : M Chunk := do
  let e := if j.widens then 2048 else 4096
  match ← readImage cl slot i j (j.src + BitVec.ofNat 64 (4 * i)) 4 with
  | .stopped => return .stopped
  | .unreadable => return .fail 4
  | .data t =>
    let h := j.src + BitVec.ofNat 64 (ofBytes t)
    match ← readImage cl slot i j h 12 with
    | .stopped => return .stopped
    | .unreadable => return .fail 4
    | .data hd =>
      if field hd 0 4 != 0x5A4C0001 then return .fail 1
      else
        let l := field hd 4 4
        if l > 2 * e then return .fail 2
        else match ← readImage cl slot i j (h + 12) l with
          | .stopped => return .stopped
          | .unreadable => return .fail 4
          | .data body =>
            match expand (l + 1) body [] e with
            | none => return .fail 2
            | some out =>
              if (crc32 out).toNat != field hd 8 4 then return .fail 3
              else return .ok (if j.widens then out.flatMap fun b => bytesOf 2 (widen b) else out)

/-- A chunk has ended; F is the number of leading chunks that have expanded (R243). -/
def chunkEnded (cl slot i reason : Nat) : M Unit :=
  modJob cl slot fun j =>
    let j := { j with chunks := sset i reason j.chunks, begun := j.begun.erase i, edge := (j.begun.erase i).isEmpty }
    { j with done := j.leading }

/-- A chunk is in progress. -/
def beginChunk (cl slot chunk : Nat) : M Unit :=
  modJob cl slot fun j => { j with
    begun := if j.begun.contains chunk then j.begun else j.begun ++ [chunk], edge := false }

/-- A step may be taken of a chunk that has not ended: a job that is to stop begins none (R243). -/
def Job.chunkOpen (j : Job) (chunk : Nat) : Bool :=
  j.form.2 == 4 && chunk < 16 && j.inv.isNone && !(j.chunks.any (·.1 == chunk)) &&
    (j.begun.contains chunk || !(j.cancel || j.stopping.isSome))

/-- CPYX_CHUNK (R242): a step of one chunk; chunks go on beside each other and end in any order. -/
def execCpyxChunk (cluster chunk : Nat) (s : State) : Host.Outcome State Fault Refusal :=
  match pickJob s cluster 2 with
  | none => act s []
  | some (slot, j) =>
    if !j.chunkOpen chunk then act s []
    else runM (do
      startJob cluster slot 2
      if ← (if j.chunks.isEmpty && j.begun.isEmpty then cpyxCheck cluster slot j else pure true) then
        beginChunk cluster slot chunk
        match ← expandChunk cluster slot chunk j with
        | .stopped => pure ()
        | .fail r => chunkEnded cluster slot chunk r
        | .ok bs =>
          let v := { copyVia cluster j true with asid := j.dstAsid }
          match ← reach v (j.dst + BitVec.ofNat 64 (4096 * chunk)) 4096 with
          | .ok l =>
            countCluster cluster 0x48 64
            copySend cluster slot ((wordCuts l.key (bs.map some)).map fun x => (l, x.1, x.2))
            chunkEnded cluster slot chunk 0
          | x =>
            modJob cluster slot fun j => { j with chunk := chunk }
            if j.out == 0 then copyStop cluster slot true [match x with
              | .poison a => .refused a
              | x => x]) s

/-- CPYX_FINISH (R242): every chunk has ended, and what they wrote has been acknowledged. -/
def execCpyxFinish (cluster : Nat) (s : State) : Host.Outcome State Fault Refusal :=
  match pickJob s cluster 2 with
  | none => act s []
  | some (slot, j) =>
    if j.form.2 != 4 || j.resting || j.chunks.length < 16 || j.out != 0 then act s []
    else match j.chunks.find? fun x => x.2 != 0 with
      | none => runM (endJob cluster slot 65536 0x00 0) s
      | some (i, r) => runM (poisonEnd cluster slot j (r * 16 + i) 0x12) s

end Sys2Proof.Machine
end

