-- ==== Sys2Proof/Machine/TmeNode.lean ====
section
/-! DEFINITION. Node arenas and typed quadtrees: references, nodes, allocation, counts, views and payload elements
(R245 to R258), frames of the TME (R284). -/

namespace Sys2Proof.Machine

/-- The null reference (R246). -/
def nullRef : Nat := 0xFFFFFFFF

def refCore (r : Nat) : Nat := r / 2 ^ 29
def refIdx (r : Nat) : Nat := r % 2 ^ 29

/-- F64 1.0 and −1.0. -/
def one64 : Nat := 0x3FF0000000000000
def minusOne64 : Nat := 0xBFF0000000000000

def isZero64 (v : Nat) : Bool := v % 2 ^ 63 == 0

/-! ### Nodes (R248 to R251) -/

/-- Leaf formats (R248). -/
def leafFmt (t : Nat) : Bool := (1 ≤ t && t ≤ 3) || (5 ≤ t && t ≤ 11)

/-- The rules of R249 to R251 for a node; `side` is the S its parent asks for. -/
def Node.ok (n : Node) (side : Option Nat) : Bool :=
  let e := elemSize n.fmt
  let n' := 2 ^ n.s
  let sideOk := match side with
    | some x => x == n.s
    | none => true
  let common := n.count != 0 && bits n.w0 39 32 == 0 && bits n.w0 43 41 == 0 && sideOk &&
    (n.kind == 5 || !n.w0.testBit 40) && (n.kind == 4 || n.rankm1 == 0)
  match n.kind with
  | 0 => common && 2 ≤ n.s && n.s ≤ 16 && n.w3 == 0
  | 1 | 2 => common && leafFmt n.fmt && 1 ≤ n.s && n.s ≤ 16 && n.w1 == 0 && n.w2 == 0
  | 3 | 4 => common && leafFmt n.fmt && 1 ≤ n.s && n.s ≤ 16 && n.w1 % e == 0 && n.w2 == 0
  | 5 => common && leafFmt n.fmt && 1 ≤ n.s && n.s ≤ 16 && n.w1 % e == 0 && n' ≤ n.ld &&
    (if n.w0.testBit 40 then n.swz < n' * e && n.swz % e == 0 else n.swz == 0)
  | _ => false

/-! ### Arenas (R252) -/

/-- A core of the cluster with its arena: physical core, AB, slots. -/
def arenaOf (i : Nat) : E (Nat × Nat × Nat) := do
  let k ← localCore i
  let p := ((← onM getS).core k).regs.partw
  return (k, arenaBase p, 512 * wbitsOf p 7 0)

/-- The arena's free payload region as the engine reads it, outside an allocation. -/
def readArena (k ab : Nat) : E Arena := do return arenaOfBytes (← readLoc (.pool k ab) 64)

/-- One indivisible operation of the arena of a core (R253, R179). -/
def arenaAsk (i : Nat) (op : ArenaOp) : E (List Nat) := do
  let (k, ab, _) ← arenaOf i
  ask (.arena op) (.pool k ab) 64

/-- An allocation in the arena of a core: a descriptor that is not valid ends the job, a full arena suspends it, and the
allocation is repeated when it goes on (R252, R254). -/
def allocate (i : Nat) (op : ArenaOp) (reason : Nat) : Nat → E Nat
  | 0 => return 0
  | fuel + 1 => do
    match ← prim (arenaAsk i op) with
    | [0, x] => return x
    | [1] => finish 0x04 (0xA00000 + i)
    | _ =>
      suspendHere 0x10 (reason * 2 ^ 20 + i)
      allocate i op reason fuel

/-- alloc_node of R253 in the arena of a core. -/
def allocNode (i : Nat) : E Nat := do
  let ref := i * 2 ^ 29 + (← allocate i .node 1 (← walkFuel))
  setJob fun j => { j with owned := j.owned ++ [ref] }
  modMarks fun m => { m with nodes := m.nodes + 1, root := if m.root == nullRef then ref else m.root }
  return ref

/-- alloc_payload of R253: the LOCAL address of the run. -/
def allocRun (i n : Nat) : E Nat := do
  let m := (n + 31) / 32
  let a ← allocate i (.run m) 2 (← walkFuel)
  modMarks fun x => { x with runs := x.runs + m }
  return a

/-- Read a node; a reference outside its arena ends the job (R246). An index below BUMP at or above the arena's slots, which only
a BUMP beyond the arena admits, ends it likewise (DESIGN CHOICE, log 56). -/
def readNode (r : Nat) : E Node := do
  let a ← prim do
    let (k, ab, slots) ← arenaOf (refCore r)
    let i := refIdx r
    if slots == 0 || i < 2 || slots ≤ i then finish 0x04 (r % 2 ^ 24)
    let bump := ofBytes (← readLoc (.pool k (ab + 8)) 4)
    if bump ≤ i then finish 0x04 (r % 2 ^ 24)
    let b ← readKept (.pool k (ab + 32 * i)) 32
    return [field b 0 8, field b 8 8, field b 16 8, field b 24 8]
  return { ref := r, w0 := a.getD 0 0, w1 := a.getD 1 0, w2 := a.getD 2 0, w3 := a.getD 3 0 }

/-- Read a node and check it (R249). -/
def checkedNode (r : Nat) (side : Option Nat) : E Node := do
  let n ← readNode r
  if !n.ok side then finish 0x04 (r % 2 ^ 24)
  return n

/-- Where a node stands. -/
def nodeAt (r : Nat) : E (Nat × Nat) := do
  let (k, ab, _) ← arenaOf (refCore r)
  return (k, ab + 32 * refIdx r)

def writeNode (r w0 w1 w2 w3 : Nat) : E Unit := do
  let _ ← prim do
    let (k, o) ← nodeAt r
    writeLoc (.pool k o) ([w0, w1, w2, w3].flatMap (bytesOf 8))
    return []

/-- Write child q of an internal node. -/
def writeKid (r q c : Nat) : E Unit := do
  let _ ← prim do
    let (k, o) ← nodeAt r
    writeLoc (.pool k (o + 8 + 4 * q)) (bytesOf 4 c)
    return []

/-- Rewrite a node but for its COUNT (R261). -/
def rewriteNode (r w0 w1 w2 w3 : Nat) : E Unit := do
  let _ ← prim do
    let (k, o) ← nodeAt r
    writeLoc (.pool k (o + 4)) (bytesOf 4 (w0 / 2 ^ 32) ++ [w1, w2, w3].flatMap (bytesOf 8))
    return []

/-- Change the COUNT of a node by one read and write of its home; sticky at 0xFFFF_FFFF (R257). Answers the COUNT it
had. -/
def changeCount (r : Nat) (f : Nat → Nat) : E Nat := do
  let a ← prim do
    let (k, o) ← nodeAt r
    let c := ofBytes (← readLoc (.pool k o) 4)
    if c != nullRef then writeLoc (.pool k o) (bytesOf 4 (f c))
    return [c]
  return a.headD 0

/-- free_node of R253: the slot as it is then shows in the words the job holds. -/
def freeNode (r : Nat) : E Unit := do
  let _ ← prim do
    let a ← arenaAsk (refCore r) (.free (refIdx r))
    let (k, o) ← nodeAt r
    setJob (·.patch (poolKey k o) ([0xF * 2 ^ 60, a.headD 0, 0, 0].flatMap (bytesOf 8)))
    return []
  setJob fun j => { j with owned := j.owned.filter (· != r) }

/-! ### Frames (R284) -/

/-- Operations of a frame. -/
def opProd : Nat := 0
def opSum : Nat := 1
def opFin : Nat := 2
def opMv : Nat := 3
def opSolve : Nat := 4
def opRsolve : Nat := 5
def opChol : Nat := 6
def opBuild : Nat := 7
def opWalk : Nat := 8

def frameWords (a b r q phase op : Nat) : List Nat :=
  [a % 2 ^ 32 + b % 2 ^ 32 * 2 ^ 32, r % 2 ^ 32 + q % 4 * 2 ^ 32 + phase % 16 * 2 ^ 36 + op % 16 * 2 ^ 40]

def pushFrame (a b r op : Nat) : E Unit := setJob fun j => { j with frames := j.frames ++ [frameWords a b r 0 0 op] }

def popFrame : E Unit := setJob fun j => { j with frames := j.frames.dropLast }

/-- Update the innermost frame. -/
def setFrame (a b r q phase op : Nat) : E Unit :=
  setJob fun j => { j with frames := j.frames.dropLast ++ [frameWords a b r q phase op] }

/-- The result node under construction stands in the innermost frame as soon as it is there. -/
def frameResult (r : Nat) : E Unit := setJob fun j =>
  { j with frames := j.frames.dropLast ++ (j.frames.getLast?.toList.map fun w =>
    if w.getD 1 0 % 2 ^ 32 == nullRef then [w.headD 0, w.getD 1 0 - nullRef + r] else w) }

/-- The innermost frame is in its phase 3, finish or retype. -/
def framePhase3 : E Unit := setJob fun j =>
  { j with frames := j.frames.dropLast ++ (j.frames.getLast?.toList.map fun w =>
    [w.headD 0, w.getD 1 0 - bits (w.getD 1 0) 39 36 * 2 ^ 36 + 3 * 2 ^ 36]) }

/-! ### Counts and releases (R257, R267) -/

/-- Release (R257): at 0 the children go in the order NW, NE, SW, SE, then the node. `walk` is TFREE: every node is
checked, counted in RESULT, and a boundary. Answers the nodes freed. -/
def release (walk : Bool) : Nat → Nat → Option Nat → E Unit
  | 0, _, _ => pure ()
  | fuel + 1, r, side => do
    if walk then pushFrame r nullRef nullRef opWalk
    let n ← if walk then checkedNode r side else readNode r
    let c ← changeCount r (· - 1)
    let freed := c != nullRef && c ≤ 1
    if freed then
      if n.kind == 0 then
        for c in n.kids.zipIdx do
          if walk then setFrame r nullRef nullRef c.2 0 opWalk
          if walk || c.1 != nullRef then release walk fuel c.1 (some (n.s - 1))
      freeNode r
    if walk then
      popFrame
      if freed then
        setJob fun j => { j with progress := j.progress + 1 }
        boundary

/-- Levels of a tree (R245). -/
def treeFuel : Nat := 17

/-- Link an existing node into a result (R257). -/
def linkNode (r : Nat) : E Unit := do
  let c ← changeCount r (· + 1)
  if c != nullRef then setJob fun j => { j with raised := j.raised ++ [r] }

/-- Release a node the job allocated and those below it that it allocated (R257, R267). -/
def releaseOwn : Nat → Nat → E Unit
  | 0, _ => pure ()
  | fuel + 1, r => do
    if (← getJob).owned.contains r then
      let n ← readNode r
      if n.kind == 0 then
        for c in n.kids do releaseOwn fuel c
      freeNode r

/-- What a job releases when it ends early (R267): the nodes it allocated, the earliest first, and the counts it
raised. -/
def releaseAll : E Unit := do
  for r in (← getJob).owned do releaseOwn treeFuel r
  for r in (← getJob).raised do release false treeFuel r none

/-! ### Leaf operations -/

/-- A leaf operation: its frame, with the result node if it is there already, its sequence number, and the boundary at
its end (R283, R284). -/
def leafOp {α : Type} (op a b r : Nat) (body : Nat → E α) : E α := do
  pushFrame a b r op
  let seq := (← getJob).mark.seq
  let x ← body seq
  popFrame
  modMarks fun m => { m with seq := m.seq + 1, step := 0 }
  boundary
  return x

/-! ### Views (R258) -/

structure View where
  kind : Nat
  fmt : Nat
  s : Nat
  rank : Nat := 1
  alpha : Nat
  payload : Nat
  ld : Nat := 0
  swz : Nat := 0
  /-- Side of the leaf. -/
  n : Nat
  row0 : Nat := 0
  col0 : Nat := 0
  ref : Nat
  /-- The payload of the leaf and its bytes. -/
  base : Nat
  bytes : Nat
  /-- Read as its transpose (R282). -/
  trans : Bool := false
  deriving DecidableEq, Repr

def Node.view (x : Node) (trans : Bool) : View :=
  { kind := x.kind, fmt := x.fmt, s := x.s, rank := x.rankm1 + 1, alpha := x.w3, payload := x.w1,
    ld := if x.kind == 5 then x.ld else 0, swz := if x.kind == 5 then x.swz else 0, n := 2 ^ x.s, ref := x.ref,
    base := x.w1, bytes := x.bytes, trans := trans }

def View.side (v : View) : Nat := 2 ^ v.s

/-- The view is a whole leaf, read as it is. -/
def View.whole (v : View) : Bool := v.n == v.side && !v.trans

/-- Quadrant (i, j) of a view (Table 5). -/
def View.quad (v : View) (i j : Nat) : View :=
  let (i, j) := if v.trans then (j, i) else (i, j)
  let h := 2 ^ (v.s - 1)
  match v.kind with
  | 1 => { v with s := v.s - 1 }
  | 2 => if i == j then { v with s := v.s - 1 } else { v with s := v.s - 1, kind := 1, payload := 0 }
  | 3 => if i == j then { v with s := v.s - 1, payload := (v.payload + i * h * elemSize v.fmt) % 2 ^ 64 }
         else { v with s := v.s - 1, kind := 1, payload := 0 }
  | _ => { v with s := v.s - 1, row0 := v.row0 + i * h, col0 := v.col0 + j * h }

/-- An operand of the recursion: an internal node, perhaps read as its transpose, or a leaf. -/
inductive Opd where
  | node (n : Node) (trans : Bool)
  | leaf (v : View)
  deriving DecidableEq, Repr

def Opd.ref : Opd → Nat
  | .node n _ => n.ref
  | .leaf v => v.ref

def Opd.s : Opd → Nat
  | .node n _ => n.s
  | .leaf v => v.s

def Opd.isLeaf : Opd → Bool
  | .leaf _ => true
  | .node _ _ => false

/-- The operand read as its transpose. -/
def Opd.flip : Opd → Opd
  | .node n t => .node n !t
  | .leaf v => .leaf { v with trans := !v.trans }

/-! ### Elements -/

/-- One payload element, x element or list entry to be read: the core whose LPU checks it, its address and size, and of a
payload the whole of it, which may be a run of the engine's own. -/
structure Rd where
  home : Nat
  addr : Nat
  n : Nat
  pay : Option (Nat × Nat) := none
  deriving DecidableEq, Repr

def Rd.word (r : Rd) : Word := BitVec.ofNat 64 r.addr

/-- Local core index of a view's payload. -/
def View.core (v : View) : Nat := refCore v.ref

def View.rd (v : View) (off : Nat) : Rd :=
  { home := v.core, addr := (v.payload + off) % 2 ^ 64, n := elemSize v.fmt, pay := some (v.base, v.bytes) }

/-- d[i] of a diagonal leaf. -/
def View.dAt (v : View) (i : Nat) : Rd := v.rd (i * elemSize v.fmt)

/-- Element (i, j) of a dense leaf (Table 3 of R250). -/
def View.eAt (v : View) (i j : Nat) : Rd :=
  let (i, j) := if v.trans then (j, i) else (i, j)
  let e := elemSize v.fmt
  let r := v.row0 + i
  v.rd (r * v.ld * e + (((v.col0 + j) * e) ^^^ pdep r v.swz))

/-- U[i, t] and V[j, t] of a low-rank leaf. -/
def View.uRaw (v : View) (i t : Nat) : Rd := v.rd ((t * v.n + v.row0 + i) * elemSize v.fmt)
def View.vRaw (v : View) (j t : Nat) : Rd := v.rd ((v.n * v.rank + t * v.n + v.col0 + j) * elemSize v.fmt)
def View.uAt (v : View) (i t : Nat) : Rd := if v.trans then v.vRaw i t else v.uRaw i t
def View.vAt (v : View) (j t : Nat) : Rd := if v.trans then v.uRaw j t else v.vRaw j t

/-- A payload that lies in the payload region of its own core's arena: a run of the engine's own (R250), by a LOCAL address
alone (DESIGN CHOICE, log 56). -/
def ownRun (home base bytes : Nat) : E Bool := do
  let (k, ab, _) ← arenaOf home
  match classify (BitVec.ofNat 64 base) bytes with
  | .loc off =>
    let d ← readArena k ab
    return ab + 32 * d.ptop ≤ off && off + bytes ≤ ab + 32 * d.limit
  | _ => return false

/-- Where one part of an element stands: a run of the engine's own is checked against nothing (R250, R267). -/
def rdReach (r : Rd) (a : Word) (n : Nat) : E Reach := do
  let own ← match r.pay with
    | some (base, bytes) => ownRun r.home base bytes
    | none => pure false
  let home ← localCore r.home
  if own then return .ok (.pool home (bits r.addr 21 0))
  else onM (reach (← ctxVia home { r := true }) a n)

/-- What a list of accesses meets, those of the reads before those of the writes: the stop, and whether it is a write's.
Of pages absent for both the lower address stops the step (R377). -/
def stopOf (rs ws : List Reach) : Option (Reach × Bool) :=
  match worst rs, worst ws with
  | some (.absent a), some (.absent b) => some (if b.toNat < a.toNat then (.absent b, true) else (.absent a, false))
  | some (.absent _), some x => some (x, true)
  | some x, _ => some (x, false)
  | none, some x => some (x, true)
  | none, none => none

/-- Where each element stands, part by part. -/
def findAll (rs : List Rd) : E (List (List (Reach × Nat))) := do
  let mut found : List (List (Reach × Nat)) := []
  for r in rs do
    let mut ps : List (Reach × Nat) := []
    for p in pageParts r.word r.n do ps := ps ++ [(← rdReach r p.1 p.2, p.2)]
    found := found ++ [ps]
  return found

/-- The places of an element's parts that can be reached, and whether its words are kept. -/
def elemParts (rs : List Rd) (found : List (List (Reach × Nat))) : List (Bool × List (Loc × Nat)) :=
  (rs.zip found).map fun x => (x.1.pay.isSome, x.2.filterMap fun p => match p.1 with
    | .ok l => some (l, p.2)
    | _ => none)

def elemPieces (l : List (Bool × List (Loc × Nat))) : List Piece :=
  l.flatMap fun x => x.2.flatMap fun p => p.1.pieces p.2 x.1

/-- Read elements of one step, as one operation, when all that the step reads and the bytes it writes can be reached;
`more` are elements that later steps read, whose reads may go out with these (R199). -/
def readStep (rs also : List Rd) (writes : E (List Reach)) (more : E (List Rd)) : E (List Nat) := prim do
  let found ← findAll rs
  let others ← findAll also
  match stopOf ((found ++ others).flatMap fun ps => ps.map (·.1)) (← writes) with
  | some (x, w) => reachStop w [x]
  | none => pure ()
  let parts := elemParts rs found
  let ps := elemPieces parts
  if !((← getJob).missing ps).isEmpty then
    let l ← more
    fetch ps (elemPieces (elemParts l (← findAll l)))
  fetch ps
  let j ← getJob
  return parts.map fun x => ofBytes (x.2.flatMap fun l => j.bytesAt x.1 l.1 l.2)

/-- Read the elements of a step that writes only runs of the engine's own. -/
def readElems (rs : List Rd) : E (List Nat) := readStep rs [] (pure []) (pure [])

/-- Write elements of a result run: offsets in the result core's pool. -/
def writeRun (core : Nat) (items : List (Nat × List Byte)) : E Unit := do
  let _ ← prim do
    let k ← localCore core
    for x in items do writeLoc (.pool k x.1) x.2
    return []

/-- Where bytes that a job writes at addresses of its own stand: address and size of each item. -/
def reachItems (home : Nat) (items : List (Nat × Nat)) : E (List Reach) := do
  let v ← ctxVia (← localCore home) { w := true }
  let mut out : List Reach := []
  for x in items do
    for p in pageParts (BitVec.ofNat 64 x.1) x.2 do out := out ++ [← onM (reach v p.1 p.2)]
  return out

/-- Send elements of a segment that stands at an address of the job's own (R274). -/
def sendItems (home : Nat) (items : List (Nat × List Byte)) : E Unit := do
  let _ ← prim do
    let v ← ctxVia (← localCore home) { w := true }
    let ls ← reachAll true (items.map fun x => (v, BitVec.ofNat 64 x.1, x.2.length))
    writeParts ls (items.flatMap (·.2))
    return []

end Sys2Proof.Machine
end

