-- ==== Sys2Proof/Machine/TmeLeaf.lean ====
section
/-! DEFINITION. Leaf operations of the Tree Matrix Engine: leaf pairs (R259, R269), sums (R260, R270, R375), fin (R271,
R272, R376), retype-down (R261), leafvec (R274), leaf solves (R281, R282). -/

namespace Sys2Proof.Machine

/-! ### What a job's header fixes (R265, R266) -/

structure TmeHdr where
  rcore : Nat
  rtd : Bool
  sat : Bool
  cap : Nat
  ofmt : Nat
  fam : Nat
  bound : Nat
  /-- FMT of the internal nodes of intermediate trees, where it is not that of `ofmt` (R248). -/
  inner : Option Nat := none
  deriving DecidableEq, Repr

/-- Accumulation format of the family (Table 5): F64, F32, TRI. -/
def TmeHdr.f (h : TmeHdr) : Nat := if h.fam == 0 then 5 else if h.fam == 1 then 6 else 12

/-- Result format: OFMT 0 is f, or I32 in FAM 2 (Table 5). -/
def TmeHdr.out (h : TmeHdr) : Nat := if h.ofmt != 0 then h.ofmt else if h.fam == 2 then 3 else h.f

/-- FMT of the internal nodes the job creates: its result format (R248). -/
def TmeHdr.nodeFmt (h : TmeHdr) : Nat := h.inner.getD h.out

/-- The header under which intermediate trees are made: leaves in f, not retyped, internal nodes as the job's. -/
def TmeHdr.plain (h : TmeHdr) : TmeHdr := { h with ofmt := 0, rtd := false, inner := some h.nodeFmt }

/-- Round an exact value to the accumulation format (RNE; a triad takes the integer's residues, R129). -/
def rndF (f : Nat) (v : FVal) : Nat :=
  match floatOf f with
  | some g => g.ofVal .rne false v
  | none => match v with
    | .fin s m e => intToTri (roundInt .rne s m e 0)
    | _ => 0

/-- The payload of a NaN made at accumulation step k of a leaf operation (R133). -/
def genPay (f seq k : Nat) : Nat :=
  match floatOf f with
  | some g => genPayload g seq k
  | none => 0

def val (fmt bits : Nat) : FVal := decodeTag fmt bits

def fzero : FVal := .fin false 0 0

def scale (v : View) : FVal := val 5 v.alpha

/-- acc + a·b rounded to f. -/
def fmaF (f pay : Nat) (a b : FVal) (acc : Nat) : Nat := rndF f (fvFma .rne pay a b (val f acc))

/-- An exact product of factors rounded to f. -/
def mulF (f pay : Nat) (xs : List FVal) : Nat := rndF f (fvProd pay xs)

/-- An exact product still to be rounded: the payload of a NaN it makes, and its factors. -/
abbrev Term2 := Nat × List FVal

def Term2.rnd (f : Nat) (x : Term2) : Nat := mulF f x.1 x.2

def Term2.scaled (x : Term2) (a : FVal) : Term2 := (x.1, a :: x.2)

/-- Two exact products summed and rounded to f. -/
def addF (f pay : Nat) (x y : Term2) : Nat := rndF f (fvSumProd .rne pay x y)

/-- What an operation on floating values gives; a NaN it makes carries the payload (R132, R133). -/
def withPay (f pay : Nat) (xs : List FVal) (g : FloatFmt → Nat) : Nat :=
  match floatOf f with
  | some t => match pickNan xs with
    | some n => t.ofVal .rne false n
    | none => if (t.decode (g t)).isNan then t.nan false pay else g t
  | none => 0

/-! ### Steps -/

/-- Write results o, o + 1, … of a run with elements of e bytes. -/
structure Dest where
  core : Nat
  off : Nat
  e : Nat
  /-- `off` is an address of the job's own, not a place in the core's pool. -/
  sent : Bool := false
  deriving DecidableEq, Repr

def Dest.items (d : Dest) (vs : List (Nat × Nat)) : List (Nat × List Byte) :=
  vs.map fun x => ((d.off + x.1 * d.e) % 2 ^ 64, bytesOf d.e x.2)

/-- Write the results of a step. -/
def Dest.put (d : Dest) (vs : List (Nat × Nat)) : E Unit :=
  if d.sent then sendItems d.core (d.items vs) else writeRun d.core (d.items vs)

/-- Count a step of the engine once (Table 4 of R367). -/
def countStep (src : Nat) : E Unit := do
  let _ ← prim do
    onM (countCluster (← jobCl) src)
    return []

/-- 64 outputs to a step (R283). -/
def inSteps {α : Type} (l : List α) : List (List α) :=
  (List.range ((l.length + 63) / 64)).map fun c => (l.drop (64 * c)).take 64

/-- Take the reads of each output from a flat list. -/
def splitBy : List Nat → List Nat → List (List Nat)
  | [], _ => []
  | n :: t, l => l.take n :: splitBy t (l.drop n)

/-- Where the elements of a step that go to an address of the job's own stand; a run is the engine's own. -/
def Dest.reaches (d : Dest) (os : List Nat) : E (List Reach) :=
  if d.sent then reachItems d.core (os.map fun o => ((d.off + o * d.e) % 2 ^ 64, d.e)) else return []

/-- What the elements of a step are written to. -/
def putReaches (put : Option Dest) (os : List Nat) : E (List Reach) :=
  match put with
  | some d => d.reaches os
  | none => return []

/-- The elements of a step in groups that the free values pick: those of one group are read before they are written, those
of the next after that, so that a read and a write of two elements may be sent in either order (R199). -/
def groupsOf (ids : List Nat) : E (List (List Nat)) := do
  if ids.length ≤ 1 then return [ids]
  let keys ← prim (ids.mapM fun _ => do return ofBytes (← onM (freeBytes 1)) % 64)
  return ((List.range 64).map fun g => ((ids.zip keys).filter fun x => x.2 == g).map (·.1)).filter fun l => !l.isEmpty

/-- One of the steps after c, of n, which the free values pick. -/
def laterStep (c n : Nat) : E (Option Nat) := do
  if n ≤ c + 1 then return none
  return some (c + 1 + ofBytes (← onM (freeBytes 2)) % (n - c - 1))

/-- Output elements in steps of 64 (R283): each step reads what its elements need, computes and writes them. `steps`
is off for work that is no leaf operation; `src` is the event a step counts (Table 4 of R367). -/
def elemSteps (steps : Bool) (count : Nat) (need : Nat → List Rd) (f : Nat → List Nat → Nat) (put : Option Dest)
    (src : Nat := 0x41) : E (List Nat) := do
  let chunks := (count + 63) / 64
  let idsOf := fun (c : Nat) => (List.range (min 64 (count - 64 * c))).map fun i => 64 * c + i
  let mut out : List Nat := []
  for c in List.range chunks do
    let ids := idsOf c
    let mut all : List (Nat × Nat) := []
    for g in ← (if put.isSome then groupsOf ids else pure [ids]) do
      let rs := g.map need
      let vs ← readStep rs.flatten ((ids.filter fun i => !g.contains i).flatMap need) (putReaches put ids) (do
        return ((← laterStep c chunks).toList.flatMap idsOf).flatMap need)
      let res := (g.zip (splitBy (rs.map List.length) vs)).map fun x => (x.1, f x.1 x.2)
      match put with
      | some d => d.put res
      | none => pure ()
      all := all ++ res
    out := out ++ ids.map fun i => ((all.find? fun x => x.1 == i).map (·.2)).getD 0
    if steps then
      countStep src
      if c + 1 < chunks then stepEnd
  return out

/-- The dense path (R134, R269, R283): an m × n product over inner dimension k, in tiles of 16 × 16 and steps of 16
consecutive k. `last` makes the final element of an accumulator, `place` gives its place in the run. -/
def denseSteps (f seq m n k : Nat) (ra : Nat → Nat → Rd) (fa : Nat) (rb : Nat → Nat → Rd) (fb : Nat)
    (last : Nat → Nat) (place : Nat → Nat → Nat) (put : Option Dest) : E (List (Nat × Nat)) := do
  let tm := (m + 15) / 16
  let tn := (n + 15) / 16
  let tk := (k + 15) / 16
  let mut out : List (Nat × Nat) := []
  for ti in List.range tm do
    for tj in List.range tn do
      let rows := (List.range (min 16 (m - 16 * ti))).map (16 * ti + ·)
      let cols := (List.range (min 16 (n - 16 * tj))).map (16 * tj + ·)
      let cells := rows.flatMap fun i => cols.map fun j => (i, j)
      let mut accs : List Nat := cells.map fun _ => 0
      for kc in List.range tk do
        let ks := (List.range (min 16 (k - 16 * kc))).map (16 * kc + ·)
        let reads := fun (ks : List Nat) =>
          (rows.flatMap fun i => ks.map fun x => ra i x) ++ (ks.flatMap fun x => cols.map fun j => rb x j)
        let av ← readStep (reads ks) [] (putReaches put (cells.map fun x => place x.1 x.2)) (do
          return (← laterStep kc tk).toList.flatMap fun l =>
            reads ((List.range (min 16 (k - 16 * l))).map (16 * l + ·)))
        let nb := rows.length * ks.length
        let a := av.take nb
        let b := av.drop nb
        accs := (cells.zip accs).map fun x =>
          let i := x.1.1 - 16 * ti
          let j := x.1.2 - 16 * tj
          ks.zipIdx.foldl (fun acc y =>
            fmaF f (genPay f seq y.1) (val fa (a.getD (i * ks.length + y.2) 0)) (val fb (b.getD (y.2 * cols.length + j) 0))
              acc) x.2
        let done := kc + 1 == tk
        let res := (cells.zip accs).map fun x => (place x.1.1 x.1.2, if done then last x.2 else x.2)
        match put with
        | some d => d.put res
        | none => pure ()
        countStep 0x40
        if done then out := out ++ res
        if !(done && ti + 1 == tm && tj + 1 == tn) then stepEnd
  return out

/-! ### Making leaves -/

/-- A new leaf: its node first, then its run (R375). -/
def newLeaf (h : TmeHdr) (kind fmt s rankm1 alpha n : Nat) : E (Nat × Nat) := do
  let r ← allocNode h.rcore
  frameResult r
  let p ← if n == 0 then pure 0 else allocRun h.rcore n
  writeNode r (nodeW0 kind fmt s rankm1 1) p (if kind == 5 then 2 ^ s else 0) alpha
  return (r, p)

def newZ (h : TmeHdr) (fmt s : Nat) : E Nat := do return (← newLeaf h 1 fmt s 0 0 0).1

/-- Rewrite a node in place as a leaf, its reference and COUNT kept (R261, R271, R375). -/
def rewriteLeaf (r kind fmt s rankm1 alpha payload : Nat) : E Unit :=
  rewriteNode r (nodeW0 kind fmt s rankm1 0) payload (if kind == 5 then 2 ^ s else 0) alpha

/-- Elements of a payload of a kind, and where each comes from in the layout of Table 3 of R250. -/
def payloadCount (kind s rank : Nat) : Nat :=
  match kind with
  | 3 => 2 ^ s
  | 4 => 2 * 2 ^ s * rank
  | 5 => 2 ^ s * 2 ^ s
  | _ => 0

/-- The raw element that stands at index o of a payload laid out without swizzle, LD = side. -/
def View.at (v : View) (o : Nat) : Rd :=
  let n := v.side
  match v.kind with
  | 3 => v.dAt o
  | 4 => if o < n * v.rank then v.uAt (o % n) (o / n) else v.vAt ((o - n * v.rank) % n) ((o - n * v.rank) / n)
  | _ => v.eAt (o / n) (o % n)

/-- A view as a node of its own (R270): elements converted exactly to f, ALPHA carried over. -/
def materialise (h : TmeHdr) (v : View) : E Nat := do
  let c := payloadCount v.kind v.s v.rank
  let (r, p) ← newLeaf h v.kind h.f v.s (if v.kind == 4 then v.rank - 1 else 0) (if v.kind == 1 then 0 else v.alpha)
    (c * elemSize h.f)
  let _ ← elemSteps false c (fun o => [v.at o]) (fun _ l => convert v.fmt h.f .rne false (l.headD 0))
    (some { core := h.rcore, off := p, e := elemSize h.f })
  return r

/-! ### Leaf pairs (R259, R269) -/

/-- The low-rank factors of a result: U′ as given or copied, V likewise, in one run. -/
def lowRank (h : TmeHdr) (s rank : Nat) (u v : Nat → Nat → List Rd × (List Nat → Nat)) : E Nat := do
  let n := 2 ^ s
  let e := elemSize h.f
  let (r, p) ← newLeaf h 4 h.f s (rank - 1) one64 (2 * n * rank * e)
  let at_ := fun o => if o < n * rank then u (o % n) (o / n) else v ((o - n * rank) % n) ((o - n * rank) / n)
  let _ ← elemSteps true (2 * n * rank) (fun o => (at_ o).1) (fun o l => (at_ o).2 l)
    (some { core := h.rcore, off := p, e := e })
  return r

/-- A factor copied to the new run, converted exactly to f. -/
def copied (h : TmeHdr) (fmt : Nat) (r : Rd) : List Rd × (List Nat → Nat) :=
  ([r], fun l => convert fmt h.f .rne false (l.headD 0))

/-- A payload leaf of one kind whose element o needs some reads. -/
def simpleLeaf (h : TmeHdr) (kind s : Nat) (el : Nat → List Rd × (List Nat → Nat)) : E Nat := do
  let c := payloadCount kind s 1
  let e := elemSize h.f
  let (r, p) ← newLeaf h kind h.f s 0 one64 (c * e)
  let _ ← elemSteps true c (fun o => (el o).1) (fun o l => (el o).2 l) (some { core := h.rcore, off := p, e := e })
  return r

/-- leafpair (R269). R132 names no slots for the factors of these products: of NaNs whose payloads tie, the ALPHAs stand
before the elements, and A before B (DESIGN CHOICE, log 55). -/
def leafPair (h : TmeHdr) (x y : View) : E Nat := leafOp opProd x.ref y.ref nullRef fun seq => do
  let s := x.s
  let n := 2 ^ s
  let f := h.f
  let e := elemSize f
  let pay := genPay f seq 0
  let σ := [scale x, scale y]
  let at0 := fun (l : List Nat) (i : Nat) => l.getD i 0
  let run := fun (p : Nat) => (some { core := h.rcore, off := p, e := e } : Option Dest)
  match x.kind, y.kind with
  | 1, _ | _, 1 => newZ h f s
  | 2, 2 =>
    countStep 0x41
    return (← newLeaf h 2 f s 0 (mulF 5 (genPayload f64 seq 0) σ) 0).1
  | 2, 4 =>
    lowRank h s y.rank
      (fun i t => ([y.uAt i t], fun l => mulF f pay (σ ++ [val y.fmt (at0 l 0)]))) (fun j t => copied h y.fmt (y.vAt j t))
  | 4, 2 =>
    lowRank h s x.rank
      (fun i t => ([x.uAt i t], fun l => mulF f pay (σ ++ [val x.fmt (at0 l 0)]))) (fun j t => copied h x.fmt (x.vAt j t))
  | 2, k => simpleLeaf h k s fun o => ([y.at o], fun l => mulF f pay (σ ++ [val y.fmt (at0 l 0)]))
  | k, 2 => simpleLeaf h k s fun o => ([x.at o], fun l => mulF f pay (σ ++ [val x.fmt (at0 l 0)]))
  | 3, 3 =>
    simpleLeaf h 3 s fun i => ([x.dAt i, y.dAt i], fun l =>
      mulF f pay (σ ++ [val x.fmt (at0 l 0), val y.fmt (at0 l 1)]))
  | 3, 5 =>
    simpleLeaf h 5 s fun o => ([x.dAt (o / n), y.eAt (o / n) (o % n)], fun l =>
      mulF f pay (σ ++ [val x.fmt (at0 l 0), val y.fmt (at0 l 1)]))
  | 5, 3 =>
    simpleLeaf h 5 s fun o => ([x.eAt (o / n) (o % n), y.dAt (o % n)], fun l =>
      mulF f pay (σ ++ [val x.fmt (at0 l 0), val y.fmt (at0 l 1)]))
  | 3, 4 =>
    lowRank h s y.rank
      (fun i t => ([x.dAt i, y.uAt i t], fun l => mulF f pay (σ ++ [val x.fmt (at0 l 0), val y.fmt (at0 l 1)])))
      (fun j t => copied h y.fmt (y.vAt j t))
  | 4, 3 =>
    lowRank h s x.rank (fun i t => copied h x.fmt (x.uAt i t))
      (fun j t => ([y.dAt j, x.vAt j t], fun l => mulF f pay (σ ++ [val y.fmt (at0 l 0), val x.fmt (at0 l 1)])))
  | 4, 4 =>
    let k1 := x.rank
    let k2 := y.rank
    let k := min k1 k2
    let (r, p) ← newLeaf h 4 f s (k - 1) one64 (2 * n * k * e)
    let ws ← denseSteps f seq k1 k2 n (fun t i => x.vAt i t) x.fmt (fun i u => y.uAt i u) y.fmt id
      (fun t u => t * k2 + u) none
    stepEnd
    let w := fun t u => val f (((ws.find? fun z => z.1 == t * k2 + u).map (·.2)).getD 0)
    let ids := List.range (if k1 ≤ k2 then k2 else k1)
    let inner := fun (fmt : Nat) (l : List Nat) (g : Nat → FVal) =>
      let acc := ids.foldl (fun acc u => fmaF f (genPay f seq u) (val fmt (at0 l u)) (g u) acc) 0
      mulF f (genPay f seq ids.length) (σ ++ [val f acc])
    let u := fun i t => if k1 ≤ k2 then copied h x.fmt (x.uAt i t)
      else (ids.map fun z => x.uAt i z, fun l => inner x.fmt l fun z => w z t)
    let v := fun j t => if k1 ≤ k2 then (ids.map fun z => y.vAt j z, fun l => inner y.fmt l fun z => w t z)
      else copied h y.fmt (y.vAt j t)
    let at_ := fun o => if o < n * k then u (o % n) (o / n) else v ((o - n * k) % n) ((o - n * k) / n)
    let _ ← elemSteps true (2 * n * k) (fun o => (at_ o).1) (fun o l => (at_ o).2 l) (run p) 0x40
    return r
  | 4, 5 =>
    let k := x.rank
    let (r, p) ← newLeaf h 4 f s (k - 1) one64 (2 * n * k * e)
    let _ ← denseSteps f seq n k n (fun j i => y.eAt i j) y.fmt (fun i t => x.vAt i t) x.fmt
      (fun acc => mulF f (genPay f seq n) (σ ++ [val f acc])) (fun j t => n * k + t * n + j) (run p)
    stepEnd
    let _ ← elemSteps true (n * k) (fun o => [x.uAt (o % n) (o / n)]) (fun _ l => convert x.fmt f .rne false (at0 l 0)) (run p)
      0x40
    return r
  | 5, 4 =>
    let k := y.rank
    let (r, p) ← newLeaf h 4 f s (k - 1) one64 (2 * n * k * e)
    let _ ← denseSteps f seq n k n (fun i z => x.eAt i z) x.fmt (fun z t => y.uAt z t) y.fmt
      (fun acc => mulF f (genPay f seq n) (σ ++ [val f acc])) (fun i t => t * n + i) (run p)
    stepEnd
    let _ ← elemSteps true (n * k) (fun o => [y.vAt (o % n) (o / n)]) (fun _ l => convert y.fmt f .rne false (at0 l 0))
      (run (p + n * k * e)) 0x40
    return r
  | _, _ =>
    let (r, p) ← newLeaf h 5 f s 0 one64 (n * n * e)
    let _ ← denseSteps f seq n n n (fun i z => x.eAt i z) x.fmt (fun z j => y.eAt z j) y.fmt
      (fun acc => mulF f (genPay f seq n) (σ ++ [val f acc])) (fun i j => i * n + j) (run p)
    return r

/-! ### Elements of a leaf expanded to the dense type (R270) -/

/-- Element (i, j) of a leaf, ALPHA included: the reads it needs and the factors of its exact value from them. A low-rank
sum is formed by fma over ascending t in f. -/
def View.dense (v : View) (f seq i j : Nat) : List Rd × (List Nat → Term2) :=
  let pay := genPay f seq 0
  match v.kind with
  | 2 => ([], fun _ => if i == j then (pay, [scale v]) else (pay, [fzero]))
  | 3 => if i == j then ([v.dAt i], fun l => (pay, [scale v, val v.fmt (l.headD 0)])) else ([], fun _ => (pay, [fzero]))
  | 4 =>
    let ts := List.range v.rank
    (ts.flatMap fun t => [v.uAt i t, v.vAt j t], fun l =>
      let acc := ts.foldl (fun acc t =>
        fmaF f (genPay f seq t) (val v.fmt (l.getD (2 * t) 0)) (val v.fmt (l.getD (2 * t + 1) 0)) acc) 0
      (genPay f seq v.rank, [scale v, val f acc]))
  | 5 => ([v.eAt i j], fun l => (pay, [scale v, val v.fmt (l.headD 0)]))
  | _ => ([], fun _ => (pay, [fzero]))

/-- Combine the elements of two leaves at (i, j). -/
def both (p q : View) (f seq i j : Nat) (g : Term2 → Term2 → Nat) : List Rd × (List Nat → Nat) :=
  let a := p.dense f seq i j
  let b := q.dense f seq i j
  (a.1 ++ b.1, fun l => g (a.2 (l.take a.1.length)) (b.2 (l.drop a.1.length)))

/-- Kind of a sum of two leaves, neither Z (Table 7 of R260). -/
def sumKind (cap : Nat) (p q : View) : Nat :=
  match p.kind, q.kind with
  | 2, 2 => 2
  | 2, 3 | 3, 2 | 3, 3 => 3
  | 4, 4 => if p.rank + q.rank ≤ cap then 4 else 5
  | _, _ => 5

/-- The elements of a sum leaf, in the layout of its payload. -/
def sumElem (h : TmeHdr) (seq kind : Nat) (p q : View) (g : Term2 → Term2 → Nat)
    (gu : Bool → Term2 → Nat) (o : Nat) :
    List Rd × (List Nat → Nat) :=
  let n := p.side
  match kind with
  | 3 => both p q h.f seq o o g
  | 4 =>
    let rank := p.rank + q.rank
    let isU := o < n * rank
    let o' := if isU then o else o - n * rank
    let i := o' % n
    let t := o' / n
    let first := t < p.rank
    let v := if first then p else q
    let t' := if first then t else t - p.rank
    if isU then ([v.uAt i t'], fun l => gu first (genPay h.f seq 0, [scale v, val v.fmt (l.headD 0)]))
    else copied h v.fmt (v.vAt i t')
  | _ => both p q h.f seq (o / n) (o % n) g

/-! ### Sums (R270, R375) -/

/-- A term of a sum: a node the job owns, or a view of a split leaf. -/
inductive Term where
  | own (r : Nat)
  | view (v : View)
  deriving DecidableEq, Repr

/-- A term as an operand, and the node it stands in when it is one. -/
def Term.open : Term → E (Opd × Option Nat)
  | .own r => do
    let n ← readNode r
    return (if n.kind == 0 then .node n false else .leaf (n.view false), some r)
  | .view v => return (.leaf v, none)

def freeIf (r : Option Nat) : E Unit := match r with
  | some x => freeNode x
  | none => pure ()

def kidTerms (o : Opd) : List Term :=
  match o with
  | .node n _ => n.kids.map .own
  | .leaf v => [(0, 0), (0, 1), (1, 0), (1, 1)].map fun q => .view (v.quad q.1 q.2)

/-- A node of the job's own that a view stands in: its own, or a new one. -/
def standing (h : TmeHdr) (v : View) (r : Option Nat) : E Nat :=
  match r with
  | some r => return r
  | none => do
    let r ← allocNode h.rcore
    writeNode r (nodeW0 v.kind h.f v.s 0 1) 0 0 0
    return r

/-- The sum of two leaves with a payload or an identity each: P stands, rewritten, and Q is freed with its run (R375). A
view as P becomes a node first (DEDUCED, log 28). -/
def leafAdd (h : TmeHdr) (p q : View) (rp rq : Option Nat) : E Nat := leafOp opSum p.ref q.ref (rp.getD nullRef) fun seq => do
  let f := h.f
  let p64 := genPayload f64 seq 0
  let kind := sumKind h.cap p q
  let keep ← standing h p rp
  frameResult keep
  if kind == 2 then
    countStep 0x41
    rewriteLeaf keep 2 f p.s 0 (addF 5 p64 (p64, [scale p]) (p64, [scale q])) 0
  else
    let rank := p.rank + q.rank
    let c := payloadCount kind p.s rank
    let e := elemSize f
    let run ← allocRun h.rcore (c * e)
    let el := sumElem h seq kind p q (addF f (genPay f seq 0)) (fun _ x => x.rnd f)
    let _ ← elemSteps true c (fun o => (el o).1) (fun o l => (el o).2 l) (some { core := h.rcore, off := run, e := e })
    rewriteLeaf keep kind f p.s (if kind == 4 then rank - 1 else 0) one64 run
  freeIf rq
  return keep

/-- The sum of two leaves, at least one of them the job's own (R270, R375). A sum that only makes a node of a view takes no
sequence number. -/
def leafSum (h : TmeHdr) (p q : View) (rp rq : Option Nat) : E Nat := do
  let drop := if q.kind == 1 then rq else rp
  let kept := if q.kind == 1 then rp else rq
  if p.kind != 1 && q.kind != 1 then leafAdd h p q rp rq
  else match kept with
    | some r => leafOp opSum p.ref q.ref r fun _ => do
      freeIf drop
      return r
    | none =>
      pushFrame p.ref q.ref nullRef opSum
      freeIf drop
      let r ← materialise h (if q.kind == 1 then p else q)
      popFrame
      return r

/-- sum(P, Q) of R270. -/
def sumT (h : TmeHdr) : Nat → Term → Term → E Nat
  | 0, _, _ => return nullRef
  | fuel + 1, p, q => do
    let (op, rp) ← p.open
    let (oq, rq) ← q.open
    match op, oq with
    | .leaf a, .leaf b => leafSum h a b rp rq
    | .leaf a, .node n _ =>
      if a.kind == 1 then
        pushFrame a.ref n.ref n.ref opSum
        freeIf rp
        popFrame
        return n.ref
      else
        pushFrame a.ref n.ref n.ref opSum
        for x in ((kidTerms op).zip n.kids).zipIdx do
          setFrame a.ref n.ref n.ref x.2 0 opSum
          writeKid n.ref x.2 (← sumT h fuel x.1.1 (.own x.1.2))
        popFrame
        freeIf rp
        return n.ref
    | .node n _, .leaf b =>
      if b.kind == 1 then
        pushFrame n.ref b.ref n.ref opSum
        freeIf rq
        popFrame
        return n.ref
      else
        pushFrame n.ref b.ref n.ref opSum
        for x in (n.kids.zip (kidTerms oq)).zipIdx do
          setFrame n.ref b.ref n.ref x.2 0 opSum
          writeKid n.ref x.2 (← sumT h fuel (.own x.1.1) x.1.2)
        popFrame
        freeIf rq
        return n.ref
    | .node n _, .node m _ =>
      pushFrame n.ref m.ref n.ref opSum
      for x in (n.kids.zip m.kids).zipIdx do
        setFrame n.ref m.ref n.ref x.2 0 opSum
        writeKid n.ref x.2 (← sumT h fuel (.own x.1.1) (.own x.1.2))
      popFrame
      freeNode m.ref
      return n.ref

/-! ### Retype-down (R261) -/

/-- Table 8 applied to a finished leaf in the arena of a core: whether it was rewritten. -/
def retype (steps : Bool) (core : Nat) (r : Nat) : E Bool := do
  let n ← readNode r
  let v := n.view false
  let setZ := do
    rewriteLeaf r 1 n.fmt n.s 0 0 0
    return true
  let alpha := val 5 n.w3
  if n.kind == 0 || n.kind == 1 || alpha.isNan then return false
  else if n.kind == 2 then (if alpha.isZero then setZ else return false)
  else
    let c := payloadCount n.kind n.s v.rank
    let es ← elemSteps steps c (fun o => [v.at o]) (fun _ l => l.headD 0) none
    let xs := es.map (val n.fmt)
    let side := 2 ^ n.s
    if xs.any FVal.isNan then return false
    else if alpha.isZero then setZ
    else match n.kind with
      | 4 => if (xs.take (side * v.rank)).all FVal.isZero || (xs.drop (side * v.rank)).all FVal.isZero then setZ
             else return false
      | 3 =>
        if xs.all FVal.isZero then setZ
        else if es.all (· == es.headD 0) then
          let a := f64.ofVal .rne false (fvMul 0 alpha (xs.headD fzero))
          rewriteLeaf r 2 n.fmt n.s 0 a 0
          return true
        else return false
      | _ =>
        if xs.all FVal.isZero then setZ
        else if (xs.zipIdx.all fun x => x.2 / side == x.2 % side || x.1.isZero) then
          let e := elemSize n.fmt
          let run ← allocRun core (side * e)
          writeRun core ((List.range side).map fun i => (run + i * e, bytesOf e (es.getD (i * side + i) 0)))
          rewriteLeaf r 3 n.fmt n.s 0 n.w3 run
          return true
        else return false

/-- The collapse of R262: an internal node whose four children are Z becomes a zero leaf. -/
def collapse (r fmt : Nat) : E Bool := do
  let n ← readNode r
  let mut all := true
  for c in n.kids do
    if (← readNode c).kind != 1 then all := false
  if !all then return false
  for c in n.kids do release false treeFuel c none
  rewriteLeaf r 1 fmt n.s 0 0 0
  return true

/-! ### fin (R271, R272, R376) -/

/-- A tree fin walks: nodes the job owns, taken over in place, or an operand whose result is new. -/
inductive FinT where
  | own (r : Nat)
  | opd (o : Opd)
  deriving DecidableEq, Repr

/-- What an element becomes in the result format: R141 with RNE and SAT, R272 for a triad. -/
def finConv (h : TmeHdr) (v : Nat) : Nat :=
  if h.fam == 2 then truncNat (triToInt v) 32 else convert h.f h.out .rne h.sat v

/-- ALPHA of an identity result in the result format (R271, R272). -/
def finAlpha (h : TmeHdr) (a : Nat) : Nat :=
  if h.fam == 2 then (if h.out == 11 then f64.ofVal .rne false (fvMul 0 (val 5 a) (.fin false 1 (-16))) else a)
  else if h.out == h.f then a
  else convert h.out 5 .rne false (convert 5 h.out .rne h.sat a)

/-- fin of one leaf t, with the Cold leaf c when it is there (Table 7). A leaf of the job's own keeps its node and run when
no bit of an element or of ALPHA changes, though its FMT may; a new node for a whole operand leaf of which no bit changes
keeps its payload (R376; DEDUCED for TADD, log 28). -/
def finLeaf (h : TmeHdr) (α β : FVal) (t : View) (rt : Option Nat) (c : Option View) : E Nat :=
  leafOp opFin t.ref ((c.map (·.ref)).getD nullRef) (rt.getD nullRef) fun seq => do
    let f := h.f
    let of := h.out
    let pay := genPay f seq 0
    let p64 := genPayload f64 seq 0
    let cold := match c with
      | some x => if x.kind == 1 then none else some x
      | none => none
    let place := fun (kind rankm1 alpha n : Nat) => do
      match rt with
      | some r =>
        let p ← if n == 0 then pure 0 else allocRun h.rcore n
        pure (r, p, rewriteLeaf r kind of t.s rankm1 alpha p)
      | none =>
        let (r, p) ← newLeaf h kind of t.s rankm1 alpha n
        pure (r, p, (pure () : E Unit))
    let plain := fun (kind a : Nat) => do
      match rt with
      | some r => if kind == t.kind && of == t.fmt && a == t.alpha then return r
      | none => pure ()
      let (r, _, done) ← place kind 0 a 0
      done
      return r
    let identity := fun (a : Nat) => do
      countStep 0x41
      plain 2 (finAlpha h a)
    let payload := fun (kind rank : Nat) (el : Nat → List Rd × (List Nat → Nat)) => do
      let cnt := payloadCount kind t.s rank
      let es ← elemSteps true cnt (fun o => (el o).1) (fun o l => finConv h ((el o).2 l)) none
      let near := t.core == h.rcore || bits t.payload 63 60 != 0
      let same ← if kind == t.kind && elemSize of == elemSize t.fmt && t.alpha == one64 && (kind != 4 || rank == t.rank) &&
          (rt.isSome || (t.whole && near)) then do
            let old ← readElems ((List.range cnt).map t.at)
            pure (old == es)
          else pure false
      match same, rt with
      | true, some r =>
        if of != t.fmt then rewriteLeaf r kind of t.s (if kind == 4 then rank - 1 else 0) one64 t.payload
        return r
      | true, none =>
        let n ← readNode t.ref
        let r ← allocNode h.rcore
        frameResult r
        writeNode r (n.w0 / 2 ^ 32 * 2 ^ 32 + 1 - n.fmt * 2 ^ 56 + of * 2 ^ 56) n.w1 n.w2 n.w3
        return r
      | false, _ =>
        let e := elemSize of
        let (r, p, done) ← place kind (if kind == 4 then rank - 1 else 0) one64 (cnt * e)
        writeRun h.rcore (es.zipIdx.map fun x => (p + x.2 * e, bytesOf e x.1))
        done
        return r
    let single := fun (v : View) (g : FVal) =>
      payload v.kind v.rank fun o =>
        if v.kind == 4 && v.side * v.rank ≤ o then copied h v.fmt (v.at o)
        else ([v.at o], fun l => mulF f pay [g, scale v, val v.fmt (l.headD 0)])
    let r ← match t.kind == 1, cold with
      | true, none => plain 1 0
      | true, some x =>
        if x.kind == 2 then identity (mulF 5 p64 [β, scale x]) else single x β
      | false, none =>
        if t.kind == 2 then identity (mulF 5 p64 [α, scale t]) else single t α
      | false, some x =>
        let kind := sumKind h.cap t x
        if kind == 2 then
          let b := mulF 5 p64 [β, scale x]
          identity (addF 5 p64 (p64, [α, scale t]) (p64, [val 5 b]))
        else
          payload kind (t.rank + x.rank)
            (sumElem h seq kind t x (fun a b => addF f pay (a.scaled α) (pay, [val f ((b.scaled β).rnd f)]))
              fun first a => (a.scaled (if first then α else β)).rnd f)
    if h.rtd then
      framePhase3
      let _ ← retype true h.rcore r
    return r

/-- Read an operand node: checked (R249), its leaf in the job's family (R266). -/
def operand (h : TmeHdr) (r : Nat) (side : Option Nat) (trans : Bool) : E Opd := do
  let n ← checkedNode r side
  if n.kind == 0 then return .node n trans
  else
    let famOk := match h.fam with
      | 0 => n.fmt == 5
      | 1 => 6 ≤ n.fmt && n.fmt ≤ 10
      | _ => (n.fmt == 1 || n.fmt == 2) && (match n.kind with
        | 1 => true
        | 2 => (match val 5 n.w3 with
          | .fin _ m e =>
            let v := if 0 ≤ e then m * 2 ^ e.toNat else m / 2 ^ (-e).toNat
            (0 ≤ e || m % 2 ^ (-e).toNat == 0) && v ≤ 32768
          | _ => false)
        | 4 => false
        | _ => n.w3 == one64)
    if !famOk then finish 0x04 (r % 2 ^ 24)
    return .leaf (n.view trans)

/-- Quadrant (i, j) of an operand. -/
def Opd.quad (h : TmeHdr) (o : Opd) (i j : Nat) : E Opd := do
  match o with
  | .leaf v => return .leaf (v.quad i j)
  | .node n t =>
    let q := if t then 2 * j + i else 2 * i + j
    operand h (n.kids.getD q nullRef) (some (n.s - 1)) t

def FinT.open (t : FinT) : E (Opd × Option Nat) := do
  match t with
  | .own r =>
    let n ← readNode r
    return (if n.kind == 0 then .node n false else .leaf (n.view false), some r)
  | .opd o => return (o, none)

def quadIJ : List (Nat × Nat) := [(0, 0), (0, 1), (1, 0), (1, 1)]

/-- A new internal node, its children not yet made; it stands in the frame of its level (R284). -/
def newInternal (h : TmeHdr) (s : Nat) : E Nat := do
  let r ← allocNode h.rcore
  frameResult r
  writeNode r (nodeW0 0 h.nodeFmt s 0 1) (2 ^ 64 - 1) (2 ^ 64 - 1) 0
  return r

/-- fin(T, Cold, α, β) of R271: T's own nodes are taken over, other results are new nodes. -/
def fin (h : TmeHdr) (α β : FVal) : Nat → FinT → Option Opd → E Nat
  | 0, _, _ => return nullRef
  | fuel + 1, t, c => do
    let (o, rt) ← t.open
    let coldLeaf := match c with
      | some (.node _ _) => false
      | _ => true
    match o with
    | .leaf v =>
      if coldLeaf then
        finLeaf h α β v rt (match c with
          | some (.leaf x) => some x
          | _ => none)
      else
        let cref := (c.map Opd.ref).getD nullRef
        pushFrame v.ref cref (rt.getD nullRef) opFin
        let r ← match rt with
          | some r => pure r
          | none => allocNode h.rcore
        frameResult r
        let mut kids : List Nat := []
        for q in quadIJ do
          setFrame v.ref cref r (2 * q.1 + q.2) 0 opFin
          let cq ← match c with
            | some x => do pure (some (← x.quad h q.1 q.2))
            | none => pure none
          kids := kids ++ [← fin h α β fuel (.opd (.leaf (v.quad q.1 q.2))) cq]
        let w1 := kids.getD 0 0 + kids.getD 1 0 * 2 ^ 32
        let w2 := kids.getD 2 0 + kids.getD 3 0 * 2 ^ 32
        let fmt := h.nodeFmt
        if rt.isSome then rewriteNode r (nodeW0 0 fmt v.s 0 0) w1 w2 0 else writeNode r (nodeW0 0 fmt v.s 0 1) w1 w2 0
        if h.rtd then
          framePhase3
          let _ ← collapse r h.out
        popFrame
        return r
    | .node n tr =>
      let cref := (c.map Opd.ref).getD nullRef
      pushFrame n.ref cref (rt.getD nullRef) opFin
      let r ← match rt with
        | some r => pure r
        | none => newInternal h n.s
      for q in quadIJ do
        let qi := 2 * q.1 + q.2
        setFrame n.ref cref r qi 0 opFin
        let cq ← match c with
          | some x => do pure (some (← x.quad h q.1 q.2))
          | none => pure none
        match rt with
        | some _ =>
          let _ ← fin h α β fuel (.own (n.kids.getD qi nullRef)) cq
        | none =>
          let tq ← (Opd.node n tr).quad h q.1 q.2
          writeKid r qi (← fin h α β fuel (.opd tq) cq)
      if h.rtd then
        framePhase3
        let _ ← collapse r h.out
      popFrame
      return r

/-- prod(X, Y) of R268. -/
def prod (h : TmeHdr) : Nat → Opd → Opd → E Nat
  | 0, _, _ => return nullRef
  | fuel + 1, x, y => do
    match x, y with
    | .leaf a, .leaf b => leafPair h a b
    | _, _ =>
      pushFrame x.ref y.ref nullRef opProd
      let r ← newInternal h x.s
      for q in quadIJ do
        let qi := 2 * q.1 + q.2
        setFrame x.ref y.ref r qi 0 opProd
        let p0 ← prod h fuel (← x.quad h q.1 0) (← y.quad h 0 q.2)
        writeKid r qi p0
        setFrame x.ref y.ref r qi 1 opProd
        let p1 ← prod h fuel (← x.quad h q.1 1) (← y.quad h 1 q.2)
        setFrame x.ref y.ref r qi 2 opProd
        writeKid r qi nullRef
        let t ← sumT h treeFuel (.own p0) (.own p1)
        writeKid r qi t
      popFrame
      return r

/-! ### leafvec (R274) -/

/-- Reads of x. -/
structure VecX where
  home : Nat
  addr : Nat
  fmt : Nat
  deriving DecidableEq, Repr

def VecX.rd (x : VecX) (j : Nat) : Rd :=
  { home := x.home, addr := (x.addr + j * elemSize x.fmt) % 2 ^ 64, n := elemSize x.fmt }

/-- The term of a leaf: none is the zero term. It is written where `seg` says, a segment of WRK. -/
def leafVec (h : TmeHdr) (x : VecX) (v : View) (c0 : Nat) (seg : Dest) : E (Option (List Nat)) :=
  leafOp opMv v.ref nullRef nullRef fun seq => do
    let f := h.f
    let n := v.side
    let σ := scale v
    let at0 := fun (l : List Nat) (i : Nat) => l.getD i 0
    let pay := genPay f seq 0
    match v.kind with
    | 1 => return none
    | 2 => return some (← elemSteps true n (fun i => [x.rd (c0 + i)]) (fun _ l => mulF f pay [σ, val x.fmt (at0 l 0)])
        (some seg))
    | 3 => return some (← elemSteps true n (fun i => [v.dAt i, x.rd (c0 + i)])
        (fun _ l => mulF f pay [σ, val v.fmt (at0 l 0), val x.fmt (at0 l 1)]) (some seg))
    | 4 =>
      let w ← denseSteps f seq v.rank 1 n (fun t j => v.vAt j t) v.fmt (fun j _ => x.rd (c0 + j)) x.fmt id
        (fun t _ => t) none
      stepEnd
      let ts := List.range v.rank
      return some (← elemSteps true n (fun i => ts.map fun t => v.uAt i t) (fun _ l =>
        let acc := ts.foldl (fun acc t =>
          fmaF f (genPay f seq t) (val v.fmt (at0 l t)) (val f ((w.getD t (0, 0)).2)) acc) 0
        mulF f (genPay f seq v.rank) [σ, val f acc]) (some seg))
    | _ =>
      let r ← denseSteps f seq n 1 n (fun i j => v.eAt i j) v.fmt (fun j _ => x.rd (c0 + j)) x.fmt
        (fun acc => mulF f (genPay f seq n) [σ, val f acc]) (fun i _ => i) (some seg)
      return some (r.map (·.2))

/-! ### Solves (R281, R282) -/

/-- One triangular solve of columns by substitution: `order` gives the unknowns in the order they are found, `before i`
those found earlier in the order they are subtracted. `l i k` is element (i, k) of the triangle; `right` is X·Lᵀ = B. -/
structure Tri where
  f : Nat
  seq : Nat
  unit : Bool
  right : Bool
  l : Nat → Nat → List Rd × (List Nat → Term2)
  upper : Bool
  n : Nat

def Tri.before (t : Tri) (i : Nat) : List Nat :=
  if t.upper then ((List.range (t.n - 1 - i)).map fun d => t.n - 1 - d) else List.range i

def Tri.order (t : Tri) : List Nat := if t.upper then (List.range t.n).reverse else List.range t.n

/-- The quotient of a value and an exact product, rounded to f. -/
def divF (f pay : Nat) (a : FVal) (d : Term2) : Nat := withPay f pay (a :: d.2) fun t => t.div .rne false a (fvProd d.1 d.2)

def oneTerm : Term2 := (0, [.fin false 1 0])

/-- An unknown from the right side b, the row of the triangle and the unknowns already found. A NaN that the division makes
carries the step after the last of the sum (DESIGN CHOICE, log 52). -/
def Tri.solveOne (t : Tri) (b : Term2) (row : List (Term2 × Nat)) (diag : Term2) : Nat :=
  let acc := row.zipIdx.foldl (fun acc x =>
    let pay := genPay t.f t.seq x.2
    let u := (val t.f x.1.2).negate
    addF t.f pay (pay, if t.right then u :: x.1.1.2 else x.1.1.2 ++ [u]) (pay, [val t.f acc])) (b.rnd t.f)
  divF t.f (genPay t.f t.seq row.length) (val t.f acc) diag

/-- Solve `cols` columns; `b i c` is the right side; the unknowns are written as they are found, 64 to a step, element
`place i c` of the run. What a step needs of the operands is read as one (R377). -/
def triSolve (t : Tri) (cols : Nat) (b : Nat → Nat → List Rd × (List Nat → Term2)) (place : Nat → Nat → Nat) (put : Dest) :
    E Unit := do
  let chunks := inSteps ((List.range cols).flatMap fun c => t.order.map fun i => (i, c))
  let mut xs : List (Nat × Nat) := []
  for ch in chunks.zipIdx do
    let need := ch.1.map fun x => (b x.1 x.2).1 ++ ((t.before x.1).flatMap fun k => (t.l x.1 k).1) ++
      (if t.unit then [] else (t.l x.1 x.1).1)
    let vs ← readElems need.flatten
    let mut res : List (Nat × Nat) := []
    for x in ch.1.zip (splitBy (need.map List.length) vs) do
      let (i, c) := x.1
      let bs := b i c
      let js := t.before i
      let lrow := js.map fun k => t.l i k
      let dg := if t.unit then ([], fun _ => oneTerm) else t.l i i
      let parts := splitBy (bs.1.length :: (lrow.map fun z => z.1.length) ++ [dg.1.length]) x.2
      let row := (js.zip (lrow.zip (parts.drop 1))).map fun z =>
        (z.2.1.2 z.2.2, ((xs.find? fun y => y.1 == c * t.n + z.1).map (·.2)).getD 0)
      let v := t.solveOne (bs.2 (parts.headD [])) row (dg.2 (parts.getLastD []))
      xs := (c * t.n + i, v) :: xs
      res := res ++ [(place i c, v)]
    put.put res
    countStep 0x41
    if ch.2 + 1 < chunks.length then stepEnd

/-- The result of a leaf solve: the triangle leaf `l`, the right-side leaf `b`. `right` is rsolve, X·Lᵀ = B: its rows
are solved as columns (R282). -/
def leafSolve (h : TmeHdr) (upper unit right : Bool) (l b : View) : E Nat :=
  leafOp (if right then opRsolve else opSolve) l.ref b.ref nullRef fun seq => do
    let f := h.f
    let n := b.side
    let e := elemSize f
    let pay := genPay f seq 0
    let tri : Tri := { f := f, seq := seq, unit := unit, right := right, l := fun i k => l.dense f seq i k, upper := upper, n := n }
    match b.kind with
    | 1 => newZ h f b.s
    | 4 =>
      let k := b.rank
      let (r, p) ← newLeaf h 4 f b.s (k - 1) one64 (2 * n * k * e)
      let u := fun i t => ([b.uAt i t], fun (lst : List Nat) => (pay, [scale b, val b.fmt (lst.headD 0)]))
      let w := fun j t => ([b.vAt j t], fun (lst : List Nat) => (pay, [scale b, val b.fmt (lst.headD 0)]))
      if right then
        triSolve tri k w (fun i t => n * k + t * n + i) { core := h.rcore, off := p, e := e }
        stepEnd
        let _ ← elemSteps true (n * k) (fun o => [b.uAt (o % n) (o / n)]) (fun _ lst => convert b.fmt f .rne false (lst.headD 0))
          (some { core := h.rcore, off := p, e := e })
        return r
      else
        triSolve tri k u (fun i t => t * n + i) { core := h.rcore, off := p, e := e }
        stepEnd
        let _ ← elemSteps true (n * k) (fun o => [b.vAt (o % n) (o / n)]) (fun _ lst => convert b.fmt f .rne false (lst.headD 0))
          (some { core := h.rcore, off := p + n * k * e, e := e })
        return r
    | kb =>
      if kb == 2 && l.kind == 2 then
        countStep 0x41
        let d := if unit then one64 else l.alpha
        return (← newLeaf h 2 f b.s 0 (divF 5 (genPayload f64 seq 0) (scale b) (0, [val 5 d])) 0).1
      else if kb == 3 && (l.kind == 2 || l.kind == 3) then
        simpleLeaf h 3 b.s fun i =>
          let x := b.dense f seq i i
          let d := if unit then ([], fun _ => oneTerm) else l.dense f seq i i
          (x.1 ++ d.1, fun lst =>
            divF f pay (val f ((x.2 (lst.take x.1.length)).rnd f)) (d.2 (lst.drop x.1.length)))
      else
        let (r, p) ← newLeaf h 5 f b.s 0 one64 (n * n * e)
        let rhs := fun i c => if right then b.dense f seq c i else b.dense f seq i c
        triSolve tri n rhs (fun i c => if right then c * n + i else i * n + c) { core := h.rcore, off := p, e := e }
        return r

/-- solve(L, B) of R281; `right` is rsolve of R282. Only the triangle concerned is read. -/
def solve (h : TmeHdr) (upper unit right : Bool) : Nat → Opd → Opd → E Nat
  | 0, _, _ => return nullRef
  | fuel + 1, l, b => do
    match l, b with
    | .leaf x, .leaf y => leafSolve h upper unit right x y
    | _, _ =>
      let m1 := val 5 minusOne64
      let p1 := val 5 one64
      let op := if right then opRsolve else opSolve
      pushFrame l.ref b.ref nullRef op
      let r ← newInternal h b.s
      let lo := if upper then 1 else 0
      let hi := 1 - lo
      for j in [0, 1] do
        let at_ := fun (i : Nat) => if right then (j, i) else (i, j)
        let slot := fun (i : Nat) => 2 * (at_ i).1 + (at_ i).2
        setFrame l.ref b.ref r (slot lo) 0 op
        let x0 ← solve h upper unit right fuel (← l.quad h lo lo) (← b.quad h (at_ lo).1 (at_ lo).2)
        writeKid r (slot lo) x0
        setFrame l.ref b.ref r (slot hi) 1 op
        let xo ← operand h x0 none false
        let off ← l.quad h hi lo
        let t ← if right then prod h fuel xo off.flip else prod h fuel off xo
        let b' ← fin h.plain m1 p1 fuel (.own t) (some (← b.quad h (at_ hi).1 (at_ hi).2))
        setFrame l.ref b.ref r (slot hi) 2 op
        let x1 ← solve h upper unit right fuel (← l.quad h hi hi) (← operand h b' none false)
        writeKid r (slot hi) x1
        release false treeFuel b' none
      popFrame
      return r

/-! ### Factorisation (R282) -/

/-- The pivots floored so far: how many, and the first index. -/
structure Pivots where
  count : Nat := 0
  first : Nat := nullRef
  deriving DecidableEq, Repr

def Pivots.add (p : Pivots) (k at_ : Nat) : Pivots :=
  { count := p.count + k, first := if p.first == nullRef then at_ else p.first }

/-- d ≤ ε, exactly; a NaN is not floored. -/
def floored (d ε : FVal) : Bool := fvLt d ε || fvEq d ε

def sqrtF (f pay : Nat) (a : FVal) : Nat := withPay f pay [a] fun t => t.sqrt .rne false a

/-- A pivot after the floor: its pattern in f, and whether it was floored. -/
def pivot (f : Nat) (ε δ : FVal) (d : Nat) : Nat × Bool :=
  if floored (val f d) ε then (rndF f δ, true) else (d, false)

/-- leafchol of R282; `row0` is the leaf's first row in A. -/
def leafChol (h : TmeHdr) (ε δ : FVal) (row0 : Nat) (v : View) (pv : Pivots) : E (Nat × Pivots) :=
  leafOp opChol v.ref nullRef nullRef fun seq => do
    let f := h.f
    let n := v.side
    let e := elemSize f
    match v.kind with
    | 2 =>
      countStep 0x41
      let low := floored (scale v) ε
      let d := if low then f64.ofVal .rne false δ else v.alpha
      let (r, _) ← newLeaf h 2 f v.s 0 (sqrtF 5 (genPayload f64 seq 0) (val 5 d)) 0
      return (r, if low then pv.add n row0 else pv)
    | 1 | 3 =>
      let (r, p) ← newLeaf h 3 f v.s 0 one64 (n * e)
      let ds ← elemSteps true n (fun i => (v.dense f seq i i).1) (fun i l => ((v.dense f seq i i).2 l).rnd f) none
      let ps := ds.map (pivot f ε δ)
      writeRun h.rcore (ps.zipIdx.map fun x => (p + x.2 * e, bytesOf e (sqrtF f (genPay f seq 0) (val f x.1.1))))
      return (r, ps.zipIdx.foldl (fun a x => if x.1.2 then a.add 1 (row0 + x.2) else a) pv)
    | _ =>
      let (r, p) ← newLeaf h 5 f v.s 0 one64 (n * n * e)
      let mut ls : List (Nat × Nat) := []
      let mut acc := pv
      let mut ljj := 0
      let dest : Dest := { core := h.rcore, off := p, e := e }
      let chunks := inSteps ((List.range n).flatMap fun j => (List.range n).map fun i => (i, j))
      for ch in chunks.zipIdx do
        let need := ch.1.map fun x => if x.1 < x.2 then [] else (v.dense f seq x.1 x.2).1
        let vs ← readElems need.flatten
        let mut res : List (Nat × Nat) := []
        for z in ch.1.zip (splitBy (need.map List.length) vs) do
          let (i, j) := z.1
          if i < j then res := res ++ [(i * n + j, 0)]
          else
            let get := fun r c => val f (((ls.find? fun y => y.1 == r * n + c).map (·.2)).getD 0)
            let a := ((v.dense f seq i j).2 z.2).rnd f
            let d := (List.range j).foldl (fun x k => fmaF f (genPay f seq k) (get i k).negate (get j k) x) a
            let pay := genPay f seq j
            let x ← if i == j then do
                let (d', low) := pivot f ε δ d
                if low then acc := acc.add 1 (row0 + j)
                ljj := sqrtF f pay (val f d')
                pure ljj
              else pure (divF f pay (val f d) (0, [val f ljj]))
            ls := (i * n + j, x) :: ls
            res := res ++ [(i * n + j, x)]
        dest.put res
        countStep 0x41
        if ch.2 + 1 < chunks.length then stepEnd
      return (r, acc)

/-- chol(A) of R282: only NW, SW and SE are read. -/
def chol (h : TmeHdr) (ε δ : FVal) : Nat → Nat → Opd → Pivots → E (Nat × Pivots)
  | 0, _, _, pv => return (nullRef, pv)
  | fuel + 1, row0, a, pv => do
    match a with
    | .leaf v => leafChol h ε δ row0 v pv
    | .node n _ =>
      pushFrame n.ref nullRef nullRef opChol
      let r ← newInternal h a.s
      let (nw, pv) ← chol h ε δ fuel row0 (← a.quad h 0 0) pv
      writeKid r 0 nw
      setFrame n.ref nullRef r 2 1 opChol
      let sw ← solve h false false true fuel (← operand h nw none false) (← a.quad h 1 0)
      writeKid r 2 sw
      setFrame n.ref nullRef r 3 2 opChol
      let o ← operand h sw none false
      let t ← prod h.plain fuel o o.flip
      let s ← fin h.plain (val 5 minusOne64) (val 5 one64) fuel (.own t) (some (← a.quad h 1 1))
      let (se, pv) ← chol h ε δ fuel (row0 + 2 ^ (a.s - 1)) (← operand h s none false) pv
      writeKid r 3 se
      let z ← newZ h h.f (a.s - 1)
      writeKid r 1 z
      release false treeFuel s none
      popFrame
      return (r, pv)

end Sys2Proof.Machine
end

