-- ==== Sys2Proof/Machine/TmeJobs.lean ====
section
/-! DEFINITION. The TREE jobs (R263 to R289): descriptor checks, the programs of the eleven forms, stop records,
suspension and resumption, TME_STEP and the forms themselves. -/

namespace Sys2Proof.Machine

/-! ### Descriptor checks (R265 to R267, R230) -/

/-- Bits of a field that must be zero: the first nonzero byte among them is told. -/
def zeroBits (at_ n mask : Nat) : E Unit := do
  let v := (← dfield at_ n) &&& mask
  match (List.range n).find? fun i => bits v (8 * i + 7) (8 * i) != 0 with
  | some i => finish 0x04 (at_ + i)
  | none => pure ()

def maskBits (hi lo : Nat) : Nat := 2 ^ (hi + 1) - 2 ^ lo

/-- Header bits a form does not use, beside the reserved ones (R265, R266, R274). -/
def hdrUnused (sub mode fam : Nat) : Nat :=
  let bound := maskBits 63 32
  match sub with
  | 0 => if fam == 2 then 0 else bound
  | 1 => maskBits 3 0 + maskBits 15 8 + (if fam == 2 then 0 else bound)
  | 3 => maskBits 15 8 + bound
  | 4 | 5 => 2 ^ 64 - 1
  | 6 => if mode == 2 then 2 ^ 64 - 1 else maskBits 63 3
  | 7 => maskBits 63 3
  | _ => bound

/-- OFMT values of a form (Table 5, R276). -/
def ofmtOk (sub fam ofmt : Nat) : Bool :=
  if sub == 3 then leafFmt ofmt
  else match fam with
    | 0 => ofmt == 0 || ofmt == 5
    | 1 => ofmt == 0 || (6 ≤ ofmt && ofmt ≤ 10)
    | 2 => ofmt == 0 || ofmt == 3 || ofmt == 11
    | _ => false

/-- Families of a form. -/
def famOk (sub fam : Nat) : Bool :=
  match sub with
  | 0 | 1 | 2 => fam ≤ 2
  | 8 | 9 => fam ≤ 1
  | _ => fam == 0

/-- The header: reserved and unused bits, then the reserved bytes of the form, then values. -/
def header (sub mode : Nat) (rest : E Unit) : E TmeHdr := do
  let v ← dfield 16 8
  let fam := bits v 21 20
  zeroBits 16 8 (maskBits 7 5 ||| maskBits 31 22 ||| hdrUnused sub mode fam)
  rest
  let cap := bits v 15 8
  let ofmt := bits v 19 16
  if cap > 128 then finish 0x04 17
  if !ofmtOk sub fam ofmt || !famOk sub fam then finish 0x04 18
  return { rcore := bits v 2 0, rtd := v.testBit 3, sat := v.testBit 4, cap := if cap == 0 then 128 else cap, ofmt := ofmt,
           fam := fam, bound := bits v 63 32 }

/-- α = 1.0 and no old term in FAM 2 (R266). -/
def fam2 (h : TmeHdr) (cold : Bool) : E Unit := do
  if h.fam == 2 then
    if (← dfield 48 8) != one64 then finish 0x04 48
    if cold && !isZero64 (← dfield 56 8) then finish 0x04 56

/-- BOUND of R273. -/
def boundCheck (h : TmeHdr) (s : Nat) : E Unit := do
  if h.fam == 2 && (h.bound == 0 || h.bound * 2 ^ s > 536870399) then finish 0x03 0

/-- Local index of the issuing core. -/
def myCore : E Nat := do return (← getJob).core % 8

def addrAt (at_ : Nat) : E Word := do return BitVec.ofNat 64 (← dfield at_ 8)

def checkAt (at_ n align : Nat) (need : Rights) (far : Bool) : E Unit := do
  checkRange (← localCore (← myCore)) (← addrAt at_) n align need far

/-- W and SR (R267); where the stop record stands is kept. -/
def checkWSr : E Unit := do
  checkAt 0 8 8 { w := true, s := true } false
  checkAt 8 288 32 { w := true } false
  let a ← addrAt 8
  let r ← prim do
    match ← onM (reach (← ctxVia (← localCore (← myCore)) { w := true }) a 288) with
    | .ok (.pool k o) => return [k, o]
    | _ => finish 0x05 (a.toNat % 2 ^ 24)
  setJob fun j => { j with sr := some (r.getD 0 0, r.getD 1 0) }

/-- The root of an operand and the operand itself. -/
def rootOf (h : TmeHdr) (at_ : Nat) : E (Node × E Opd) := do
  let r ← dfield at_ 4
  let n ← checkedNode r none
  return (n, operand h r none false)

/-! ### TMUL, TADD (R268, R275) -/

/-- The Cold term at a place of the descriptor: absent when null or β is ±0; its side is A's. -/
def coldTerm (h : TmeHdr) (at_ s : Nat) : E (Option (E Opd)) := do
  let r ← dfield at_ 4
  if r == nullRef || isZero64 (← dfield 56 8) then return none
  let n ← checkedNode r none
  if n.s != s then finish 0x04 at_
  return some (operand h r none false)

def readCold (c : Option (E Opd)) : E (Option Opd) := do
  match c with
  | some x => return some (← x)
  | none => return none

def progTmul : E (Nat × Nat × Nat) := do
  let h ← header 0 0 (do zeroBytes 36 48)
  fam2 h ((← dfield 32 4) != nullRef)
  let (a, opA) ← rootOf h 24
  let (b, opB) ← rootOf h 28
  if a.s != b.s then finish 0x04 28
  let cold ← coldTerm h 32 a.s
  checkWSr
  boundCheck h a.s
  let α := val 5 (← dfield 48 8)
  let β := val 5 (← dfield 56 8)
  let t ← prod h treeFuel (← opA) (← opB)
  let r ← fin h α β treeFuel (.own t) (← readCold cold)
  return (0, 0, r)

def progTadd : E (Nat × Nat × Nat) := do
  let h ← header 2 0 (do zeroBytes 32 48)
  fam2 h ((← dfield 28 4) != nullRef)
  if (← dfield 28 4) == nullRef || isZero64 (← dfield 56 8) then checkWSr
  let (a, opA) ← rootOf h 24
  let cold ← coldTerm h 28 a.s
  if cold.isSome then checkWSr
  let α := val 5 (← dfield 48 8)
  let β := val 5 (← dfield 56 8)
  let r ← fin h α β treeFuel (.opd (← opA)) (← readCold cold)
  return (0, 0, r)

/-! ### TMV (R274) -/

/-- The payload of a NaN made outside the leaf operations of a TMV. -/
def tailPay (f : Nat) : E Nat := do return genPay f ((← getJob).mark.seq + 2 ^ 32 - 1) 255

/-- Elements of a segment written from one of its places up. -/
def putSeg (seg : Dest) (vs : List Nat) : E Unit := seg.put (vs.zipIdx.map fun x => (x.2, x.1))

/-- The segment that stands n elements further. -/
def Dest.after (d : Dest) (n : Nat) : Dest := { d with off := (d.off + n * d.e) % 2 ^ 64 }

/-- The sum of two terms, the first at `seg`, the second after it: it takes the place of the first (R274). -/
def addTerms (f n : Nat) (seg : Dest) (a b : Option (List Nat)) : E (Option (List Nat)) := do
  match a, b with
  | x, none => return x
  | none, some y =>
    putSeg seg y
    return some y
  | some x, some y =>
    let pay ← tailPay f
    let r := (x.zip y).map fun z => rndF f (fvAdd .rne pay (val f z.1) (val f z.2))
    putSeg seg (r.take n)
    return some r

/-- mv (R274). Its term stands in WRK at `seg`, the terms it is made of above it, as on a stack; a zero term leaves its
place as it is (DESIGN CHOICE, log 28: no rule gives the places). -/
def mv (h : TmeHdr) (x : VecX) : Nat → Opd → Nat → Dest → E (Option (List Nat))
  | 0, _, _, _ => return none
  | fuel + 1, o, c0, seg => do
    match o with
    | .leaf v => leafVec h x v c0 seg
    | .node n _ =>
      let half := 2 ^ (n.s - 1)
      pushFrame n.ref nullRef nullRef opMv
      let mut parts : List (Option (List Nat)) := []
      for i in [0, 1] do
        let at_ := seg.after (i * half)
        setFrame n.ref nullRef nullRef (2 * i) 0 opMv
        let p0 ← mv h x fuel (← o.quad h i 0) c0 at_
        setFrame n.ref nullRef nullRef (2 * i + 1) 1 opMv
        let p1 ← mv h x fuel (← o.quad h i 1) (c0 + half) (at_.after half)
        setFrame n.ref nullRef nullRef (2 * i + 1) 2 opMv
        parts := parts ++ [← addTerms h.f half at_ p0 p1]
      popFrame
      match parts.getD 0 none, parts.getD 1 none with
      | none, none => return none
      | a, b =>
        if a.isNone then putSeg seg (List.replicate half 0)
        if b.isNone then putSeg (seg.after half) (List.replicate half 0)
        return some (a.getD (List.replicate half 0) ++ b.getD (List.replicate half 0))

def progTmv : E (Nat × Nat × Nat) := do
  let h ← header 1 0 (do
    zeroBits 28 4 (maskBits 31 4)
    zeroBytes 72 96)
  let xt := (← dfield 28 4) % 16
  if !(match h.fam with
    | 0 => xt == 5
    | 1 => 6 ≤ xt && xt ≤ 10
    | _ => xt == 1 || xt == 2) then finish 0x04 28
  fam2 h true
  checkWSr
  let (a, opA) ← rootOf h 24
  let n := 2 ^ a.s
  let f := h.f
  let eo := elemSize h.out
  checkAt 32 (n * elemSize xt) 1 { r := true } true
  checkAt 40 (n * eo) 1 { w := true } true
  checkAt 64 (2 * n * elemSize f) 1 { w := true } true
  boundCheck h a.s
  let home ← myCore
  let pool ← localCore home
  let x : VecX := { home := home, addr := ← dfield 32 8, fmt := xt }
  let wrk ← dfield 64 8
  let t ← mv h x treeFuel (← opA) 0 { core := home, off := wrk, e := elemSize f, sent := true }
  let y ← dfield 40 8
  let α := val 5 (← dfield 48 8)
  let βbits ← dfield 56 8
  let β := val 5 βbits
  let pay ← tailPay f
  let ts := t.getD (List.replicate n 0)
  for c in List.range ((n + 63) / 64) do
    let ids := (List.range (min 64 (n - 64 * c))).map (64 * c + ·)
    let olds ← if isZero64 βbits then pure [] else
      readStep (ids.map fun i => { home := home, addr := (y + i * eo) % 2 ^ 64, n := eo }) []
        (reachItems home [((y + 64 * c * eo) % 2 ^ 64, ids.length * eo)]) (pure [])
    let vs := ids.zipIdx.map fun i =>
      let ti := val f (ts.getD i.1 0)
      let v := if isZero64 βbits then rndF f (fvMul pay α ti)
        else rndF f (fvFma .rne pay α ti (val f (rndF f (fvMul pay β (val h.out (olds.getD i.2 0))))))
      finConv h v
    writeBytes pool (BitVec.ofNat 64 (y + 64 * c * eo)) (vs.flatMap (bytesOf eo))
    setJob fun j => { j with progress := j.progress + ids.length }
    boundary
  writeBytes pool (BitVec.ofNat 64 wrk) (ts.flatMap (bytesOf (elemSize f)) ++ bytesOf (n * elemSize f) 0)
  return (0, 0, n)

/-! ### TASM (R276) -/

structure Entry4 where
  row : Nat
  col : Nat
  par : Nat
  v : Nat
  deriving DecidableEq, Repr

/-- A TASM leaf at the cutoff, typed by its elements. -/
def asmLeaf (h : TmeHdr) (home ptab s row0 col0 : Nat) (es : List Entry4) : E Nat :=
  leafOp opBuild nullRef nullRef nullRef fun seq => do
    let n := 2 ^ s
    let of := h.ofmt
    let e := elemSize of
    let here := fun (o : Nat) => es.filter fun x => x.row == row0 + o / n && x.col == col0 + o % n
    let need := fun o => (here o).filterMap fun x => if x.par == 0xFFFF then none else
      some ({ home := home, addr := (ptab + 8 * x.par) % 2 ^ 64, n := 8 } : Rd)
    let make := fun (o : Nat) (ps : List Nat) =>
      let acc := (here o).zipIdx.foldl (fun (a : Nat × List Nat) y =>
        let x := y.1
        let p := if x.par == 0xFFFF then one64 else a.2.headD 0
        let rest := if x.par == 0xFFFF then a.2 else a.2.drop 1
        (fmaF 5 (genPay 5 seq y.2) (val 5 x.v) (val 5 p) a.1, rest)) (0, ps)
      convert 5 of .rne h.sat acc.1
    let vs ← elemSteps true (n * n) need make none
    let zero := fun v => (val of v).isZero
    let diag := (List.range n).map fun i => vs.getD (i * n + i) 0
    let offZero := vs.zipIdx.all fun x => x.2 / n == x.2 % n || zero x.1
    if vs.all zero then newZ h of s
    else if offZero && diag.all (· == diag.headD 0) then
      return (← newLeaf h 2 of s 0 (convert of 5 .rne false (diag.headD 0)) 0).1
    else
      let kind := if offZero then 3 else 5
      let data := if offZero then diag else vs
      let (r, p) ← newLeaf h kind of s 0 one64 (data.length * e)
      writeRun h.rcore (data.zipIdx.map fun x => (p + x.2 * e, bytesOf e x.1))
      return r

def asmBuild (h : TmeHdr) (home ptab lc : Nat) : Nat → Nat → Nat → Nat → List Entry4 → E Nat
  | 0, _, _, _, _ => return nullRef
  | fuel + 1, s, row0, col0, es => do
    if es.isEmpty then leafOp opBuild nullRef nullRef nullRef fun _ => newZ h h.ofmt s
    else if s ≤ lc then asmLeaf h home ptab s row0 col0 es
    else
      let half := 2 ^ (s - 1)
      pushFrame nullRef nullRef nullRef opBuild
      let r ← newInternal h s
      for q in quadIJ do
        let r0 := row0 + q.1 * half
        let c0 := col0 + q.2 * half
        setFrame nullRef nullRef r (2 * q.1 + q.2) 0 opBuild
        let k ← asmBuild h home ptab lc fuel (s - 1) r0 c0
          (es.filter fun x => r0 ≤ x.row && x.row < r0 + half && c0 ≤ x.col && x.col < c0 + half)
        writeKid r (2 * q.1 + q.2) k
      framePhase3
      let _ ← collapse r h.ofmt
      popFrame
      return r

def progTasm : E (Nat × Nat × Nat) := do
  let h ← header 3 0 (do
    zeroBits 24 8 (maskBits 7 5 ||| maskBits 63 13)
    zeroBytes 44 48
    zeroBytes 60 64)
  let s := (← dfield 24 1) % 32
  let lc := (← dfield 25 1) % 32
  if s == 0 || s > 16 then finish 0x04 24
  if lc == 0 || lc > s then finish 0x04 25
  let count ← dfield 40 4
  if count > 0xFFFFFF then finish 0x04 40
  let pcount ← dfield 56 4
  checkWSr
  checkAt 32 (16 * count) 1 { r := true } true
  checkAt 48 (8 * pcount) 1 { r := true } true
  let home ← myCore
  let list ← dfield 32 8
  let raw ← elemSteps false count (fun i =>
    [{ home := home, addr := (list + 16 * i) % 2 ^ 64, n := 16 }]) (fun _ l => l.headD 0) none
  let es := raw.map fun v => ({ row := bits v 15 0, col := bits v 31 16, par := bits v 47 32, v := bits v 127 64 } : Entry4)
  let bad := (raw.zip es).findIdx? fun x =>
    x.2.row ≥ 2 ^ s || x.2.col ≥ 2 ^ s || bits x.1 63 48 != 0 || (x.2.par != 0xFFFF && x.2.par ≥ pcount)
  match bad with
  | some i => finish 0x04 i
  | none => pure ()
  let r ← asmBuild h home (← dfield 48 8) lc treeFuel s 0 0 es
  return (0, 0, r)

/-! ### Walks (R277 to R280) -/

/-- Walk a tree in pre-order, a subtree once for each path to it: each node with its depth and the image positions of its
children. -/
def collect : Nat → Nat → Option Nat → Nat → Nat → E (List (Node × Nat × List Nat))
  | 0, _, _, _, _ => return []
  | fuel + 1, r, side, depth, pos => do
    pushFrame r nullRef nullRef opWalk
    let n ← checkedNode r side
    boundary
    if n.kind != 0 then
      popFrame
      return [(n, depth, [])]
    let mut below : List (Node × Nat × List Nat) := []
    let mut ps : List Nat := []
    for c in n.kids.zipIdx do
      setFrame r nullRef nullRef c.2 0 opWalk
      ps := ps ++ [pos + 1 + below.length]
      below := below ++ (← collect fuel c.1 (some (n.s - 1)) (depth + 1) (pos + 1 + below.length))
    popFrame
    return (n, depth, ps) :: below

/-- TTYPE mode 1: R261 and R262 in place; answers the nodes visited and the leaves retyped. A leaf that a second path
reaches is left as its first visit left it (R277). -/
def retypeTree : Nat → Nat → Option Nat → E (Nat × Nat)
  | 0, _, _ => return (0, 0)
  | fuel + 1, r, side => do
    pushFrame r nullRef nullRef opWalk
    let n ← checkedNode r side
    if n.kind != 0 then
      framePhase3
      let b ← if (← getJob).visited.contains r then pure false else retype false (refCore r) r
      setJob fun j => { j with visited := r :: j.visited }
      popFrame
      boundary
      return (1, if b then 1 else 0)
    let mut seen := 1
    let mut done := 0
    for c in n.kids.zipIdx do
      setFrame r nullRef nullRef c.2 0 opWalk
      let x ← retypeTree fuel c.1 (some (n.s - 1))
      seen := seen + x.1
      done := done + x.2
    setFrame r nullRef nullRef 3 3 opWalk
    let _ ← collapse r (← readNode (n.kids.headD nullRef)).fmt
    popFrame
    boundary
    return (seen, done)

def progTtype : E (Nat × Nat × Nat) := do
  let mode := (← dfield 28 1) % 2
  let _ ← header 4 0 (do
    zeroBits 28 4 (maskBits 31 1)
    if mode == 1 then zeroBytes 32 40
    zeroBytes 40 64)
  let root ← dfield 24 4
  checkWSr
  if mode == 0 then
    checkAt 32 64 1 { r := true, w := true } true
    let l ← collect treeFuel root none 0 0
    let n := fun k => (l.filter fun x => x.1.kind == k).length
    let depth := l.foldl (fun a x => max a x.2.1) 0
    let total := l.foldl (fun a x => a + x.1.bytes) 0
    writeBytes (← localCore (← myCore)) (← addrAt 32)
      (((List.range 6).flatMap fun k => bytesOf 4 (n k)) ++ bytesOf 4 depth ++ bytesOf 4 0 ++ bytesOf 8 total ++ bytesOf 24 0)
    return (0, 0, l.length)
  else
    let x ← retypeTree treeFuel root none
    return (0, min x.2 0xFFFFFF, x.1)

def progTfree : E (Nat × Nat × Nat) := do
  let _ ← header 5 0 (do zeroBytes 28 32)
  checkWSr
  let root ← dfield 24 4
  if root != nullRef then release true treeFuel root none
  return (0, 0, (← getJob).progress)

/-- The format that leaves below share, 0 if they do not (R248). -/
def sharedFmt (fs : List Nat) : Nat := if fs.all (· == fs.headD 0) then fs.headD 0 else 0

/-- A new internal node whose children are made one by one, each in the slot and from the child that `order` names; its FMT
is written when they are done (R248). -/
def newParent (rcore r s : Nat) (kids : List (Nat × Nat)) (make : Nat → E (Nat × Nat)) : E (Nat × Nat) := do
  let x ← allocNode rcore
  frameResult x
  writeNode x (nodeW0 0 0 s 0 1) (2 ^ 64 - 1) (2 ^ 64 - 1) 0
  let mut fs : List Nat := []
  for c in kids do
    setFrame r nullRef x c.2 0 opWalk
    let k ← make c.1
    writeKid x c.2 k.1
    fs := fs ++ [k.2]
  let fmt := sharedFmt fs
  if fmt != 0 then
    let _ ← prim do
      let (k, o) ← nodeAt x
      writeLoc (.pool k (o + 4)) (bytesOf 4 (nodeW0 0 fmt s 0 0 / 2 ^ 32))
      return []
  return (x, fmt)

/-- One level of a walk that makes nodes: its frame, the node there, and for a leaf the boundary at its end (R279, R280,
R284). -/
def walkLevel (r : Nat) (side : Option Nat) (go : Node → E (Nat × Nat)) : E (Nat × Nat) := do
  pushFrame r nullRef nullRef opWalk
  let n ← checkedNode r side
  let x ← go n
  popFrame
  if n.kind != 0 then boundary
  return x

/-- A leaf with a run of its own: the elements of a view, dense with LD = side and no swizzle. -/
def newCopy (h : TmeHdr) (n : Node) (v : View) : E Nat := do
  let c := payloadCount n.kind n.s v.rank
  let e := elemSize n.fmt
  let (x, p) ← newLeaf h n.kind n.fmt n.s n.rankm1 n.w3 (c * e)
  let _ ← elemSteps false c (fun o => [v.at o]) (fun _ l => l.headD 0) (some { core := h.rcore, off := p, e := e })
  return x

/-- TCOPY modes 0 and 1 (R279): the new node and the format below it. -/
def copyTree (h : TmeHdr) (deep : Bool) : Nat → Nat → Option Nat → E (Nat × Nat)
  | 0, _, _ => return (nullRef, 0)
  | fuel + 1, r, side => walkLevel r side fun n => do
    if n.kind == 0 then
      newParent h.rcore r n.s n.kids.zipIdx fun c => copyTree h deep fuel c (some (n.s - 1))
    else if deep && 3 ≤ n.kind then return (← newCopy h n (n.view false), n.fmt)
    else
      let x ← allocNode h.rcore
      frameResult x
      writeNode x (n.w0 / 2 ^ 32 * 2 ^ 32 + 1) n.w1 n.w2 n.w3
      return (x, n.fmt)

def progTcopy : E (Nat × Nat × Nat) := do
  let mode := (← dfield 28 1) % 4
  let h ← header 6 mode (do
    zeroBits 28 4 (maskBits 31 2)
    if mode == 2 then zeroBytes 44 48 else zeroBytes 32 56
    zeroBytes 56 64)
  if mode == 3 then finish 0x04 28
  let root ← dfield 24 4
  checkWSr
  if mode == 2 then
    checkAt 32 32 1 { r := true, w := true } true
    let l ← collect treeFuel root none 0 0
    let base ← dfield 40 4
    let delta ← dfield 48 8
    let out ← addrAt 32
    let pool ← localCore (← myCore)
    let name := fun (p : Nat) => bits base 31 29 * 2 ^ 29 + (bits base 28 0 + p) % 2 ^ 29
    for x in l.zipIdx do
      let n := x.1.1
      let ps := x.1.2.2
      let w0 := n.w0 / 2 ^ 32 * 2 ^ 32 + (if x.2 == 0 then 2 else 1)
      let w1 := if n.kind == 0 then name (ps.getD 0 0) + name (ps.getD 1 0) * 2 ^ 32
        else if n.w1 == 0 then 0 else (n.w1 + delta) % 2 ^ 64
      let w2 := if n.kind == 0 then name (ps.getD 2 0) + name (ps.getD 3 0) * 2 ^ 32 else n.w2
      writeBytes pool (out + BitVec.ofNat 64 (32 * x.2)) ([w0, w1, w2, n.w3].flatMap (bytesOf 8))
      setJob fun j => { j with progress := x.2 + 1 }
      boundary
    return (0, 0, l.length)
  else
    return (0, 0, (← copyTree h (mode == 0) treeFuel root none).1)

/-- TTRANS (R280): the new node and the format below it. -/
def transTree (h : TmeHdr) : Nat → Nat → Option Nat → E (Nat × Nat)
  | 0, _, _ => return (nullRef, 0)
  | fuel + 1, r, side => walkLevel r side fun n => do
    match n.kind with
    | 0 => newParent h.rcore r n.s (n.kids.zip [0, 2, 1, 3]) fun c => transTree h fuel c (some (n.s - 1))
    | 4 | 5 => return (← newCopy h n (n.view true), n.fmt)
    | _ =>
      linkNode r
      return (r, n.fmt)

def progTtrans : E (Nat × Nat × Nat) := do
  let h ← header 7 0 (do zeroBytes 28 32)
  let root ← dfield 24 4
  checkWSr
  return (0, 0, (← transTree h treeFuel root none).1)

/-! ### TSOLVE, TCHOL (R281, R282) -/

/-- RTD and OFMT applied to a finished solution (R271, R281). -/
def finish2 (h : TmeHdr) (r : Nat) : E Nat :=
  if h.rtd || h.out != h.f then fin h (val 5 one64) fzero treeFuel (.own r) none else return r

def progTsolve : E (Nat × Nat × Nat) := do
  let h ← header 8 0 (do
    zeroBits 32 8 (maskBits 63 2)
    zeroBytes 40 64)
  let fl ← dfield 32 1
  let (l, opL) ← rootOf h 24
  let (b, opB) ← rootOf h 28
  if l.s != b.s then finish 0x04 28
  checkWSr
  let x ← solve h (fl.testBit 0) (fl.testBit 1) false treeFuel (← opL) (← opB)
  return (0, 0, ← finish2 h x)

def progTchol : E (Nat × Nat × Nat) := do
  let h ← header 9 0 (do
    zeroBytes 28 32
    zeroBytes 56 64)
  checkWSr
  checkAt 48 8 1 { r := true, w := true } true
  let (x, pv) ← chol h (val 5 (← dfield 32 8)) (val 5 (← dfield 40 8)) treeFuel 0 (← (← rootOf h 24).2) {}
  let r ← finish2 h x
  writeBytes (← localCore (← myCore)) (← addrAt 48) (bytesOf 4 pv.count ++ bytesOf 4 pv.first)
  if pv.count == 0 then return (0, 0, r)
  else return (1, min pv.count 255 * 2 ^ 16 + pv.first % 2 ^ 16, r)

/-! ### Resuming (R287, R311) -/

/-- TRESUME and DRESUME: the handle in bytes 8 to 15. A reserved field that is not zero gives the offset of its first
nonzero byte in a TREE form (R230), of the field in a DIAG form (R302; DEDUCED, log 34). A TRESUME checks W next (R267); a
DRESUME checks nothing else (R302, R311). The restart and the job's own word are one perform (R287). -/
def progResume (engine : Nat) (oks : List Nat) : E (Nat × Nat × Nat) := do
  if engine == 0 then zeroBytes 10 16
  else if (← dfield 10 6) != 0 then finish 0x04 10
  if engine == 0 then checkAt 0 8 8 { w := true, s := true } false
  throw (.resume (← dfield 8 2) oks)

/-- The program of a TREE form. -/
def treeProg (sub : Nat) : E (Nat × Nat × Nat) :=
  match sub with
  | 0 => progTmul
  | 1 => progTmv
  | 2 => progTadd
  | 3 => progTasm
  | 4 => progTtype
  | 5 => progTfree
  | 6 => progTcopy
  | 7 => progTtrans
  | 8 => progTsolve
  | 9 => progTchol
  | _ => progResume 0 [0x10, 0x12]

/-! ### Stops and ends (R285 to R288) -/

/-- The stop record of Table 10. -/
def stopImage (clk : Word) (j : Job) (cause : Nat) : List Byte :=
  let fr := j.frames.take 16
  let depth := fr.length
  let words := fr.flatten ++ List.replicate (32 - 2 * depth) 0
  bytesOf 8 (cause + depth * 16 + j.form.2 * 2 ^ 12 + j.mark.seq % 2 ^ 32 * 2 ^ 32) ++
    bytesOf 8 (j.mark.root + j.mark.step % 2 ^ 32 * 2 ^ 32) ++
    bytesOf 8 (j.mark.nodes % 2 ^ 32 + j.mark.runs % 2 ^ 32 * 2 ^ 32) ++ bytesOf 8 clk.toNat ++ words.flatMap (bytesOf 8)

/-- Send the stop record of a job that has passed the checks of its addresses (R285), or the frames of a DDE job to its
stack area (R382). -/
def sendRecord (cl slot : Nat) (j : Job) (cause : Nat) : M Unit := do
  match j.sr with
  | none => pure ()
  | some (k, o) =>
    let clk := (← getS).clk
    let bs := if j.engine == 0 then stopImage clk j cause else j.frames.flatten.flatMap (bytesOf 8)
    let n ← engineSend cl slot j (.pool k o) (bs.map some)
    modJob cl slot fun j => { j with out := j.out + n }

/-- A job stops for a cause of Table 10 of R285: its record goes out, and it halts once that is acknowledged. What it has
read ahead is read anew when it goes on (R289). -/
def haltJob (cl slot : Nat) (j : Job) (cause : Nat) (h : Halt) : M Unit := do
  sendRecord cl slot j cause
  modJob cl slot fun j => { j with halting := some h, early := [] }

/-- The running job stops at its boundary for the eclipse line or a pre-emption (R243, R288, R312): its record goes out, and
it keeps its slot. -/
def stopHere (cl slot : Nat) (j : Job) (cause : Nat) : M Unit := do
  sendRecord cl slot j cause
  leaveStopped cl slot j.engine

/-- RESULT of a job that ends early: what its entry states (R267, R288, R302); open where no entry states one (log 14). -/
def earlyResult (j : Job) (status : Nat) : M Nat := do
  let open_ : M Nat := do return ofBytes (← freeBytes 4)
  if j.engine == 1 then return 0
  else if status == 0x06 then open_
  else match j.form.2 with
    | 4 | 10 => open_
    | 1 | 5 => return j.progress
    | 6 => return if field j.desc 28 1 % 4 == 2 then j.progress else nullRef
    | _ => return nullRef

/-- Clear the marks a DDE job has set in bit 31 of NEXT (R296); a word that cannot be read keeps its mark, the others lose
theirs. Whether all could be read. -/
def clearMarks : E Bool := do
  let j ← getJob
  let mut ok := true
  for n in j.owned do
    let l : Loc := .pool j.area.1 (j.area.2 + 16 * n + 3)
    let r ← prim do
      if (← getJob).spoilt (l.pieces 1 false) then return [0]
      writeLoc l ((← readKept l 1).map (· &&& 0x7F))
      return [1]
    if r == [0] then ok := false
  return ok

/-- One reference less to a node of a job's diagram space, when its slot holds a valid node (R296, R298, R309); a COUNT of
0xFFFF is sticky. -/
def dropCount (n : Nat) : E Unit := do
  let _ ← prim do
    let j ← getJob
    let d := j.space.getD (0, 0)
    let top := ofBytes (← readKept (.pool d.1 (d.2 + 12)) 4)
    let nvars := ofBytes (← readKept (.pool d.1 (d.2 + 42)) 2)
    let w ← readKept (.pool j.area.1 (j.area.2 + 16 * n)) 16
    let c := field w 4 2
    if n < top && field w 6 2 < nvars && field w 8 4 != field w 12 4 && c != 0 && c != 0xFFFF then
      writeLoc (.pool j.area.1 (j.area.2 + 16 * n + 4)) (bytesOf 2 (c - 1))
    return []

/-- What a job that ends early does before its word: it releases what it holds (R267), or clears its marks and drops the
references of nodes it has reclaimed (R296, R309). -/
def endProg (e : Ending) : E Unit := do
  setJob fun j => { j with owned := e.owned, raised := e.raised }
  if (← getJob).engine == 0 then releaseAll
  else
    let _ ← clearMarks
    for n in e.raised do dropCount n

/-- End a TME or DDE job early: releases first (R267), then the word. The references that a cancelled DGC has still to drop
are dropped (log 34); after an error R309 leaves things as they then stand. -/
def endEarly (cl slot : Nat) (j : Job) (status detail : Nat) : M Unit := do
  let d ← if status == 0x06 then do pure (ofBytes (← freeBytes 3)) else pure detail
  let r ← earlyResult j status
  let j := { j with temp := [], bad := [], ans := none, halting := none, cancel := false, stopping := none, record := none }
  let e : Ending := { status := status, detail := d, result := r, owned := j.owned
                      raised := if j.engine == 1 && status != 0x02 then [] else j.raised }
  let busy := (j.engine == 1 || (2 ≤ status && status ≤ 5)) && !(e.owned.isEmpty && e.raised.isEmpty)
  modJob cl slot fun _ => if busy then { j with ending := some e, log := [], edge := true } else j
  if busy then
    if j.st != .running then modJob cl slot fun j => { j with st := .ready }
  else endJob cl slot r status d

/-- A cancel meets a job that is releasing already: it ends as cancelled. An error it has consumed is consumed all the
same (R236, R340). -/
def endingCancelled (cl slot : Nat) (j : Job) (e : Ending) : M Unit := do
  if e.status == 0x06 then consume cl
  let r ← earlyResult j 0x02
  modJob cl slot fun j => { j with ending := some { e with status := 0x02, detail := 0, result := r } }

/-- One step of a job's early end. An error met in the release ends it there; one that is consumed changes the status
(R166). -/
def endStep (cl slot : Nat) (j : Job) (e : Ending) : M Unit := do
  let (res, j') ← runJob (endProg e) cl slot j
  modJob cl slot fun _ => { j' with edge := true }
  match res with
  | .error .step | .error .wait => pure ()
  | .error .nack => loseJob cl slot
  | .error .uncorr => endJob cl slot (← earlyResult j' 0x06) 0x06 (ofBytes (← freeBytes 3))
  | _ => endJob cl slot e.result e.status e.detail

/-- What a run of a job's program leaves behind. -/
def afterRun (cl slot : Nat) (res : Except Stop (Nat × Nat × Nat)) (j : Job) : M Unit := do
  modJob cl slot fun _ => j
  match res with
  | .ok (status, detail, result) => endJob cl slot result status detail
  | .error (.resume h oks) =>
    let bad := doneWord (← earlyResult j 0x04) 0x04 1
    modJob cl slot fun j => { j with st := .ended }
    sendWord cl slot j (.resume h oks bad) bad
  | .error .step | .error .wait | .error (.need _ _) | .error (.ask _ _ _) => pure ()
  | .error .nack => loseJob cl slot
  | .error (.page a w) => haltJob cl slot j 2 (.page a w)
  | .error (.poison _) => haltJob cl slot j 3 (.suspend 0x12 (0x12 * 2 ^ 16))
  | .error (.suspend status detail) => haltJob cl slot j 1 (.suspend status detail)
  | .error (.finish status detail _) => endEarly cl slot j status detail
  | .error .uncorr => endEarly cl slot j 0x06 0
  | .error (.critical a w) =>
    engineCritical cl j (jobHandle (← getS) cl slot j) a w
    endEarly cl slot j 0x06 0

/-- A job halts as it has to. -/
def halted (cl slot : Nat) (h : Halt) : M Unit := do
  modJob cl slot fun j => { j with halting := none }
  match h with
  | .page a w => waitRecord cl slot a w
  | .suspend status detail => suspendJob cl slot status detail

/-- What the engine does with the job it has turned to: it ends or stops at a boundary, where requests of it that are out
are waited for; elsewhere it takes the next step. -/
def engineGo (cl slot engine : Nat) (j : Job) (prog : Job → E (Nat × Nat × Nat)) : M Unit := do
  match j.ending with
  | some e => endStep cl slot j e
  | none =>
    if j.rests && (j.cancel || j.halting.isSome || j.stopping.isSome) then
      if j.out > 0 then pure ()
      else if j.cancel then endEarly cl slot j 0x02 0
      else match j.halting with
        | some h => halted cl slot h
        | none => stopHere cl slot j (j.stopping.getD 0)
    else
      startJob cl slot engine
      let (res, j') ← runJob (prog j) cl slot { j with st := .running }
      afterRun cl slot res j'

/-- One step of an engine that runs programs. -/
def engineStep (cl engine : Nat) (prog : Job → E (Nat × Nat × Nat)) (s : State) : Host.Outcome State Fault Refusal :=
  match pickJob s cl engine with
  | none => act s []
  | some (slot, j) => runM (engineGo cl slot engine j prog) s

/-- TME_STEP (R283). -/
def execTmeStep (cluster : Nat) (s : State) : Host.Outcome State Fault Refusal :=
  engineStep cluster 0 (fun j => treeProg j.form.2) s

/-- TMUL (R268). -/
def execTmul (f : FmtE) (s : State) : Host.Outcome State Fault Refusal := command f [.a] s
/-- TMV (R274). -/
def execTmv (f : FmtE) (s : State) : Host.Outcome State Fault Refusal := command f [.a] s
/-- TADD (R275). -/
def execTadd (f : FmtE) (s : State) : Host.Outcome State Fault Refusal := command f [.a] s
/-- TASM (R276). -/
def execTasm (f : FmtE) (s : State) : Host.Outcome State Fault Refusal := command f [.a] s
/-- TTYPE (R277). -/
def execTtype (f : FmtE) (s : State) : Host.Outcome State Fault Refusal := command f [.a] s
/-- TFREE (R278). -/
def execTfree (f : FmtE) (s : State) : Host.Outcome State Fault Refusal := command f [.a] s
/-- TCOPY (R279). -/
def execTcopy (f : FmtE) (s : State) : Host.Outcome State Fault Refusal := command f [.a] s
/-- TTRANS (R280). -/
def execTtrans (f : FmtE) (s : State) : Host.Outcome State Fault Refusal := command f [.a] s
/-- TSOLVE (R281). -/
def execTsolve (f : FmtE) (s : State) : Host.Outcome State Fault Refusal := command f [.a] s
/-- TCHOL (R282). -/
def execTchol (f : FmtE) (s : State) : Host.Outcome State Fault Refusal := command f [.a] s
/-- TRESUME (R287). -/
def execTresume (f : FmtE) (s : State) : Host.Outcome State Fault Refusal := command f [.a] s

end Sys2Proof.Machine
end

