-- ==== Sys2Proof/Machine/Hndl.lean ====
section
/-! DEFINITION. HCANCEL (R236), the resolve of an engine job's record (R217, R233), and the posting of records that wait
for their slot (R216). -/

namespace Sys2Proof.Machine

/-- A handle names a job of the cluster and partition: its slot (R236). -/
def handleSlot (s : State) (cl part : Nat) (h : Word) : Option Nat :=
  let slot := wbitsOf h 13 8
  let q := s.slotOf cl slot
  match q.job with
  | none => none
  | some j =>
    if wbitsOf h 63 16 == 0 && j.engine == wbitsOf h 15 14 && q.gen.toNat == wbitsOf h 7 0 && j.part == part then some slot
    else none

/-- A job is to end as cancelled (R236, R243, R288): at once when it has not started or is suspended; one that runs ends at
its next boundary, one whose suspension is on its way once that is done; one that is releasing already ends as cancelled. -/
def cancelJob (cl slot : Nat) : M Unit := do
  match (← getS).jobOf cl slot with
  | none => pure ()
  | some j =>
    match j.ending with
    | some e => endingCancelled cl slot j e
    | none =>
      if j.st == .running || j.st == .leaving || j.out > 0 then modJob cl slot fun j => { j with cancel := true }
      else if j.engine == 2 then cancelCopy cl slot j
      else endEarly cl slot j 0x02 0

/-- HCANCEL (R236). An ending write that has been sent has reached the queue first (DESIGN CHOICE, log 56). Table 2 of R67
names no latency for HCANCEL: its result arrives after 1 slot (DESIGN CHOICE, log 56). -/
def execHcancel (f : FmtE) (s : State) : Host.Outcome State Fault Refusal :=
  fireM f.gm (targetList f.t) [.a] true (fun i _ => do
    markCommitted
    match (handleSlot s (s.cur.core / 8) (s.partOf s.cur.core) (i.tok .a).word).filter fun slot =>
        ((s.jobOf (s.cur.core / 8) slot).map fun j => j.st != .ended).getD false with
    | none => emitCur (targetList f.t) (predTok false) 1
    | some slot =>
      cancelJob (s.cur.core / 8) slot
      emitCur (targetList f.t) (predTok true) 1) s

/-- What a job does with the value its record was resolved with (Table 7 of R217, R237, R242, R286). -/
def resolveJob (cl slot : Nat) (j : Job) (v : Word) : M Unit := do
  let detail := v.toNat % 256 * 2 ^ 16
  modJob cl slot fun j => { j with record := none }
  if v == 0 then modJob cl slot fun j => { j with st := .ready }
  else if j.engine == 2 then
    if j.form.2 == 4 then
      chunkEnded cl slot j.chunk 4
      modJob cl slot fun j => { j with st := .ready }
    else copyEnd cl slot 0x12 detail
  else
    haltJob cl slot j 3 (.suspend 0x12 (v.toNat % 256 * 2 ^ 16))
    modJob cl slot fun j => { j with st := .ready }

/-- ENGINE_JOB_RESOLVE (R217): the record's w3 is FULL. -/
def execEngineJobResolve (cluster slot : Nat) (s : State) : Host.Outcome State Fault Refusal :=
  match s.jobOf cluster slot with
  | none => act s []
  | some j =>
    match j.record with
    | none => act s []
    | some (k, off) =>
      let key := poolKey k off
      if j.st == .waitRecord && jobRuns s j && (s.syncOf (key / 8)).getLsbD 0 then
        runM (do
          let good ← deviceGood cluster k off 8
          let _ ← agentRead cluster k off 8 (jobAgent s cluster slot j)
          if good then resolveJob cluster slot j (Mem.read64 s.mem key)) s
      else act s []

/-- FAULT_RECORD_POST (R216): the oldest record that waits, once slot h is free. -/
def execFaultRecordPost (cluster : Nat) (s : State) : Host.Outcome State Fault Refusal :=
  match (s.cluster cluster).pend with
  | [] => act s []
  | r :: _ =>
    if ((s.pager cluster).map fun p => s.portBusy (.pool p.1)).getD false then act s []
    else runM (do
      match ← post cluster r (recDone r) with
      | none => pure ()
      | some loc =>
        modCluster cluster fun c => { c with pend := c.pend.drop 1 }
        match r.job with
        | some (slot, gen) =>
          if (s.slotOf cluster slot).gen == gen then
            modJob cluster slot fun j => if j.st == .waitRecord then { j with record := some loc } else j
        | none => pure ()) s

/-- FAULT_POST_RETRY_EXPIRY (R216): the block whose record found a busy slot executes again. -/
def execFaultPostRetryExpiry (core ctx : Nat) (s : State) : Host.Outcome State Fault Refusal :=
  let c := s.ctx core ctx
  match c.phase with
  | .after (.postRetry a t) =>
    if c.status == .active && !c.loadsOut && t ≤ s.clk.toNat then
      act s [.ctx core ctx { c with phase := .fetch a s.clk.toNat }]
    else act s []
  | _ => act s []

end Sys2Proof.Machine
end

