-- ==== Sys2Proof/Machine/Park.lean ====
section
/-! DEFINITION. Waiting and parking: retries (R74, R181), the parking attempt (R75, R186, R217, R227), the park record
(R182), wakes (R185), and the limit of a park (R187, R380). -/

namespace Sys2Proof.Machine

/-! ### The record of a task (Table 12 of R182) -/

/-- What a record tells beside the registers. -/
structure RecInfo where
  blk : Word
  gtid : Word
  wake : Word := 0
  /-- Bytes 40 to 47. -/
  cond : Nat := 0
  clk : Nat := 0
  kind : Nat
  halted : Bool := false
  core : Nat
  deriving DecidableEq, Repr

/-- Bytes 40 to 47: condition, index of the waiting form, context, generation. -/
def condWord (cond : BitVec 2) (idx ctx gen : Nat) : Nat :=
  cond.toNat + idx % 64 * 2 ^ 8 + ctx % 256 * 2 ^ 16 + gen % 256 * 2 ^ 24

/-- The 576 bytes of a record. -/
def taskRecord (r : Regs) (i : RecInfo) : List Byte :=
  bytesOf 8 i.blk.toNat ++ bytesOf 8 i.gtid.toNat ++ bytesOf 8 r.xsig.toNat ++
    bytesOf 8 (packFlags r + r.stealdom.toNat * 2 ^ 39) ++ bytesOf 8 i.wake.toNat ++ bytesOf 8 i.cond ++ bytesOf 8 i.clk ++
    bytesOf 8 r.wspin.toNat ++ bytesOf 8 r.wlimit.toNat ++ bytesOf 8 r.slimit.toNat ++ bytesOf 8 r.tvec.toNat ++
    bytesOf 8 r.tsave.toNat ++
    bytesOf 8 (i.kind + (if r.hf then 8 else 0) + (if i.halted then 16 else 0) + i.core * 2 ^ 16) ++
    bytesOf 8 r.taddr.toNat ++ bytesOf 8 r.tblk.toNat ++ bytesOf 8 (r.tcause.toNat + r.tidx.toNat * 256) ++
    regBytes r ++ bytesOf 32 0

/-- The registers a record holds, every field restored (R182). -/
def recordRegs (bs : List Byte) : Regs :=
  { restoreRegs {} bs with
    stealdom := BitVec.ofNat 3 (field bs 24 8 / 2 ^ 39)
    wspin := BitVec.ofNat 16 (field bs 56 8)
    wlimit := BitVec.ofNat 32 (field bs 64 8)
    slimit := fieldWord bs 72
    tvec := fieldWord bs 80
    tsave := fieldWord bs 88
    hf := (field bs 96 8).testBit 3
    taddr := fieldWord bs 104
    tblk := fieldWord bs 112
    tcause := BitVec.ofNat 8 (field bs 120 8)
    tidx := BitVec.ofNat 7 (field bs 120 8 / 256) }

/-- Pool offset of a park slot (R163). -/
def parkAt (partw : Word) (p : Nat) : Nat := parkBase partw + 576 * p

/-- The task of a park slot as an agent (Table 9 of R373): the context and generation it parked from. -/
def parkAgent (s : State) (core ctx : Nat) (gen : BitVec 8) (gtid : Word) : Agent :=
  { id := coreAgent s core ctx gen, gtid := gtid, asid := asidOf (s.core core).regs.asid }

/-- Bytes of the record of a park slot, as the core's own unit reads them for its task (R166, R373). -/
def readRecord (core p lo n : Nat) : M (List Byte) := do
  let s ← getS
  let ps := sget { st := .parked, ctx := 0, gen := 0, task := {}, on := .form, cond := 0, home := core, off := 0, idx := 0,
                   clk := 0, blk := 0, addr := 0 } p (s.core core).pslots
  agentRead (core / 8) core (parkAt (s.core core).regs.partw p + lo) n (parkAgent s core ps.ctx ps.gen ps.task.gtid)

/-- The record of a park slot as it stands in the pool. -/
def parkRecord (s : State) (core p : Nat) : List Byte := Mem.read s.mem (poolKey core (parkAt (s.core core).regs.partw p)) 576

/-! ### Retries -/

/-- A request reached a fenced umbra (R340). -/
def umbraNack (core ctx : Nat) (gen : BitVec 8) : M Unit :=
  modNet fun n => { n with umbraNacks := n.umbraNacks ++ [(core, ctx, gen)] }

/-- Test a resolve word: FULL settles the wait (R217). The test is a read at its home, which the home check examines (R373).
Answers whether the wait goes on. -/
def tryResolve (core ctx : Nat) (k off : Nat) (addr blk : Word) (idx : BitVec 7) : M Bool := do
  let s ← getS
  let key := poolKey k off
  if s.nacks (core / 8) k then
    umbraNack core ctx (← getCtx core ctx).gen
    return false
  else
    let bad ← eccRead k off 8
    holdRange k off 8
    homeWatch k off 8 true false (← ctxAgent core ctx)
    match bad with
    | some b =>
      raiseUncorr core ctx (coreAddr (s.logical k) b)
      return false
    | none =>
      if !(s.syncOf (key / 8)).getLsbD 0 then return true
      resolveTask core ctx (Mem.read64 s.mem key) addr blk idx
      return false

/-- WAIT_RETRY (R74, R181, R217): one attempt, in the context's slot, which it uses. -/
def execWaitRetry (core ctx : Nat) (s : State) : Host.Outcome State Fault Refusal :=
  let c := s.ctx core ctx
  match c.wait with
  | none => act s []
  | some w =>
    if !(c.mayTry (s.partRec core) && slotOpen c ctx s.clk.toNat && (!w.expired || w.retry)) then act s []
    else runM (do
      countCore core 0x02 ctx
      modCtx core ctx fun c => { c with lastSlot := some s.clk.toNat }
      match w.on with
      | .form =>
        modCtx core ctx fun c => { c with wait := some { w with out := true } }
        addAccess core ctx w.acc
      | .queue => commandGo core ctx w.idx
      | .resolve k off addr blk idx =>
        let _ ← tryResolve core ctx k off addr blk idx) s

/-- SPIN_EXPIRY (R74, R181, R336): WSPIN rotations have elapsed since the first failed attempt, or the partition is being
pre-empted. -/
def execSpinExpiry (core ctx : Nat) (s : State) : Host.Outcome State Fault Refusal :=
  let c := s.ctx core ctx
  match c.wait with
  | some w =>
    if c.status == .active && !w.expired && (w.start + 16 * c.regs.wspin.toNat ≤ s.clk.toNat || s.preempting core) then
      act s [.ctx core ctx { c with wait := some { w with expired := true } }]
    else act s []
  | none => act s []

/-! ### Parking -/

/-- Wake condition of a waiting form (Table 12). -/
def condOf (op : MemOp) : BitVec 2 :=
  match op with
  | .stf _ => 2
  | .jwait => 3
  | _ => 1

/-- No park slot or no wake entry: the next parking attempt comes max(WSPIN, 1) rotations later (R186). -/
def parkLater (core ctx : Nat) (blk addr : Word) (idx : BitVec 7) : M Unit := do
  let c ← getCtx core ctx
  let t ← now
  noticeParkfull core c.task.gtid blk addr idx.toNat
  modCtx core ctx fun c => { c with wait := c.wait.map fun w =>
    { w with out := false, retry := true, parkAt := t + 16 * max c.regs.wspin.toNat 1 } }

/-- CORE address of a resolve word, in the numbering of its partition (R205). -/
def w3Addr (s : State) (k off : Nat) : Word := coreAddr (s.logical k) off

/-- The block, address and index a wait is reported with. -/
def waitPlace (s : State) (c : Ctx) (w : Wait) : Word × Word × BitVec 7 :=
  match w.on with
  | .resolve k off _ blk idx => (blk, w3Addr s k off, idx)
  | _ => (c.win.addr, w.acc.ea, BitVec.ofNat 7 w.idx)

/-- Take a park slot for a wait. -/
def takePark (core ctx p : Nat) (w : Wait) (cond : BitVec 2) (home off : Nat) : M Unit := do
  let s ← getS
  let c ← getCtx core ctx
  let (blk, addr, idx) := waitPlace s c w
  let ps : PSlot := {
    st := .reserved, ctx := ctx, gen := c.gen, task := c.task, on := w.on, cond := cond, home := home, off := off,
    idx := idx.toNat, clk := s.clk.toNat, blk := blk, addr := addr }
  modCore core fun k => { k with pslots := sset p ps k.pslots }

/-- The parking attempt on a resolve word (R217). -/
def parkResolve (core ctx p : Nat) (w : Wait) (k off : Nat) (addr blk : Word) (idx : BitVec 7) : M Unit := do
  if ← tryResolve core ctx k off addr blk idx then
    let home ← getCore k
    match freeWake home with
    | none => parkLater core ctx blk (w3Addr (← getS) k off) idx
    | some i =>
      takePark core ctx p w 1 k off
      let c ← getCtx core ctx
      let e : WakeEntry := { cond := 1, pslot := p, gen := c.gen, ctx := ctx, core := core, off := off / 8 }
      modCore k fun h => { h with wakeTable := sset i e h.wakeTable }
      markWord k (off / 8) ((← getS).syncOf (poolKey k off / 8) ||| 2)
      countCore core 0x0A ctx
      modCtx core ctx fun c => { c with phase := .parkDrain p, wait := none }
      advance core ctx

/-- The parking attempt of an engine command (R227, R231, R232): it is accepted if a slot is free, else joins the 64
waiters. -/
def parkQueue (core ctx p : Nat) (w : Wait) : M Unit := do
  let cl ← getCluster (core / 8)
  let c ← getCtx core ctx
  if (freeSlot cl c.task.gtid).isSome then commandGo core ctx w.idx
  else if cl.waiters.length ≥ 64 then parkLater core ctx c.win.addr w.acc.ea (BitVec.ofNat 7 w.idx)
  else
    takePark core ctx p w 0 core 0
    modCluster (core / 8) fun k => { k with
      waiters := k.waiters ++ [{ core := core, ctx := ctx, gen := c.gen, pslot := p, gtid := c.task.gtid }] }
    countCore core 0x0A ctx
    abort core ctx (.park p)
    advance core ctx

/-- PARK_ATTEMPT (R75, R181, R186). -/
def execParkAttempt (core ctx : Nat) (s : State) : Host.Outcome State Fault Refusal :=
  let c := s.ctx core ctx
  match c.wait with
  | none => act s []
  | some w =>
    if !s.parksNow core ctx then act s []
    else runM (do
      let (blk, addr, idx) := waitPlace s c w
      match freePark (s.core core) with
      | none => parkLater core ctx blk addr idx
      | some p =>
        match w.on with
        | .form =>
          let (home, off) := match w.acc.home with
            | .pool k => (k, w.acc.addr - poolKey k 0)
            | .far _ => (core, 0)
          let cond := condOf w.acc.op
          takePark core ctx p w cond home off
          modCtx core ctx fun c => { c with wait := some { w with out := true } }
          addAccess core ctx { w.acc with park := some (cond, p) }
        | .queue => parkQueue core ctx p w
        | .resolve k off a b i => parkResolve core ctx p w k off a b i) s

/-- PARK_SLOT_RETRY_EXPIRY (R186): a new parking attempt is due. -/
def execParkSlotRetryExpiry (core ctx : Nat) (s : State) : Host.Outcome State Fault Refusal :=
  let c := s.ctx core ctx
  match c.wait with
  | some w =>
    if c.status == .active && w.retry && w.parkAt ≤ s.clk.toNat then
      act s [.ctx core ctx { c with wait := some { w with retry := false } }]
    else act s []
  | none => act s []

/-- A count that stops at 0xFFFF (R368). -/
def sat16 (v : BitVec 16) : BitVec 16 := if v == BitVec.allOnes 16 then v else v + 1

/-- PARK_WRITEOUT (R75, R182): after 8 slots, in a clock that the pool's port is free in (R18), the record stands in the pool
and the context is FREE. -/
def execParkWriteout (core ctx : Nat) (s : State) : Host.Outcome State Fault Refusal :=
  let c := s.ctx core ctx
  match c.phase with
  | .parkWrite p =>
    if s.clk.toNat < c.busy || s.portBusy (.pool core) then act s []
    else runM (do
      match (s.core core).pslots.find? fun x => x.1 == p with
      | none => freeCtx core ctx
      | some (_, ps) =>
        let i : RecInfo := {
          blk := ps.blk, gtid := c.task.gtid, wake := ps.addr, cond := condWord ps.cond ps.idx ctx c.gen.toNat,
          clk := ps.clk, kind := 1, core := s.logical core }
        unitWrite core ctx c.task.gtid (parkAt (s.core core).regs.partw p) (taskRecord c.regs i)
        let done : PSlot := { ps with st := .parked, task := { c.task with parks := sat16 c.task.parks } }
        modCore core fun k => { k with pslots := sset p done k.pslots }
        freeCtx core ctx) s
  | _ => act s []

/-! ### Wakes -/

/-- The wake names the task parked in its slot, by bytes 40 to 47 of the record (R185). -/
def wakeMatches (w : Wake) : M Bool := do
  let b := ofBytes (← readRecord w.core w.pslot 40 8)
  return b / 2 ^ 16 % 256 == w.ctx && b / 2 ^ 24 % 256 == w.gen.toNat

/-- State of the slot a wake names. -/
def wakeSlot (s : State) (w : Wake) : Option PSlotState :=
  ((s.core w.core).pslots.find? fun x => x.1 == w.pslot).map (·.2.st)

/-- WAKE_DELIVERY (R185, R93): the first wake for the core whose park record has been written. Wakes are held while the
partition's eclipse line is up (R334). -/
def execWakeDelivery (core : Nat) (s : State) : Host.Outcome State Fault Refusal :=
  match s.net.wakes.find? fun w => w.core == core && wakeSlot s w != some .reserved with
  | none => act s []
  | some w =>
    if (s.partRec core).eclipse.isSome then act s []
    else runM (do
      modNet fun n => { n with wakes := n.wakes.erase w }
      let st := wakeSlot s w
      let fits ← if st == some .parked || st == some .cancelSent then wakeMatches w else pure false
      if fits then
        countCore core 0x0C 0
        modCore core fun k => { k with
          pslots := k.pslots.map fun x => if x.1 == w.pslot then (x.1, { x.2 with st := .woken }) else x
          requeue := k.requeue ++ [.woken w.pslot w.value] }
      else stale core) s

/-! ### The limit of a park -/

/-- A parked task has waited longer than the WLIMIT its record holds (R187, R380). -/
def overLimit (s : State) (core p : Nat) : Bool :=
  let r := parkRecord s core p
  let limit := field r 64 8
  limit != 0 && limit * 256 < s.clk.toNat - field r 48 8

/-- WLIMIT_EXPIRY (R187): a cancel goes to the awaited word's home. -/
def execWlimitExpiry (core pslot : Nat) (s : State) : Host.Outcome State Fault Refusal :=
  match (s.core core).pslots.find? fun x => x.1 == pslot with
  | some (_, ps) =>
    if ps.st == .parked && overLimit s core pslot then
      runM (do
        let _ ← readRecord core pslot 48 24
        modCore core fun k => { k with pslots := sset pslot { ps with st := .cancelSent } k.pslots }
        modNet fun n => { n with
          cancels := n.cancels ++ [{ home := ps.home, off := ps.off, core := core, pslot := pslot }] }) s
    else act s []
  | none => act s []

/-- Take a waiter's entry out of its home (R187, R333, R337): a wake-table entry, or a waiter of the job queue. Answers
whether it was there. -/
def takeEntry (core p : Nat) (ps : PSlot) : M Bool := do
  if ps.cond == 0 then
    let mine := fun (w : QWaiter) => w.core == core && w.pslot == p && w.gen == ps.gen
    let there := (← getCluster (core / 8)).waiters.any mine
    modCluster (core / 8) fun c => { c with waiters := c.waiters.filter fun w => !mine w }
    return there
  else
    let mine := fun (e : WakeEntry) => e.core == core && e.pslot == p && e.gen == ps.gen
    let there := (← getCore ps.home).wakeTable.any fun x => mine x.2
    dropWakes ps.home mine
    return there

/-- A parked task is terminated (R333). -/
def killParked (core p : Nat) (ps : PSlot) : M Unit := do
  let _ ← takeEntry core p ps
  freeSlotOf core p
  modCore core fun k => { k with requeue := k.requeue.filter fun r => match r with
    | .woken q _ | .waitlim q => q != p
    | .runnable _ _ _ _ => true }
  almanacOf core ps.ctx ps.task 2
  endTask ps.task.launch true

/-- WAIT_CANCEL (R187): the home takes the entry out, and the task is restored to take WAITLIM; or the entry was gone, and
a wake is on its way. A fenced home answers with a NACK, and the task is terminated (R340). -/
def execWaitCancel (core : Nat) (s : State) : Host.Outcome State Fault Refusal :=
  match s.net.cancels.find? fun x => x.home == core with
  | none => act s []
  | some x =>
    runM (do
      modNet fun n => { n with cancels := n.cancels.erase x }
      match (s.core x.core).pslots.find? fun y => y.1 == x.pslot with
      | none => pure ()
      | some (_, ps) =>
        if ps.st == .cancelSent && ps.home == x.home && ps.off == x.off then
          if s.fencedHome (.pool core) then
            countCore x.core 0x14 0
            killParked x.core x.pslot ps
          else
            if ← takeEntry x.core x.pslot ps then
              modCore x.core fun k => { k with
                pslots := sset x.pslot { ps with st := .woken } k.pslots, requeue := k.requeue ++ [.waitlim x.pslot] }) s

end Sys2Proof.Machine
end

