-- ==== Sys2Proof/Machine/Task.lean ====
section
/-! DEFINITION. FORK, PAUSE and the random streams (R79, R81, R82, R85, R120, R121). -/

namespace Sys2Proof.Machine

/-- A GTID (R79). -/
def gtidOf (logical : Nat) (seq : BitVec 51) : Word := BitVec.ofNat 64 (logical * 2 ^ 51 + seq.toNat)

/-- FORK (R82). Table 2 of R67 names no latency for it: its result arrives after 1 slot (DESIGN CHOICE, log 56). -/
def execFork (f : FmtE) (s : State) : Host.Outcome State Fault Refusal :=
  fireM f.gm (targetList f.t) [.a, .b, .c] true (fun i w => do
    let k ← getCore s.cur.core
    markCommitted
    if k.deque.length ≥ 64 then
      countCore s.cur.core 0x0F s.cur.ctx
      emitCur (targetList f.t) (.scalar 0) 1
    else
      let seq := k.seq + 1
      let g := gtidOf (s.logical s.cur.core) seq
      let r : DequeRec := {
        entry := (i.tok .a).word, arg0 := (i.tok .b).word, arg1 := toWord (zImm f.z), join := (i.tok .c).word, gtid := g,
        domain := w.snap.regs.stealdom, stamp := s.clk.setWidth 48, launch := s.curCtx.task.launch }
      modCore s.cur.core fun k => { k with seq := seq, deque := k.deque ++ [r] }
      modLaunch r.launch fun l => { l with live := l.live + 1 }
      countCore s.cur.core 0x0E s.cur.ctx
      emitCur (targetList f.t) (.scalar g) 1) s

/-- PAUSE (R85): fires zext(Z, 24) × 256 clocks after it issues. -/
def execPause (f : FmtS) (s : State) : Host.Outcome State Fault Refusal :=
  fireM f.gm (targetList f.t) [] false (fun _ _ =>
    modCtx s.cur.core s.cur.ctx fun c => c.onWin fun w =>
      { w with pauses := w.pauses ++ [(s.cur.idx, s.clk.toNat + f.z.toNat * 256)] }) s

/-- The lowest closed stream (R121). -/
def lowestClosed (v : Vector Stream 4) : Option Nat := (List.range 4).find? fun h => !(vget {} v h).isOpen

/-- RNGOPEN (R121). -/
def execRngopen (f : FmtE) (s : State) : Host.Outcome State Fault Refusal :=
  fireM f.gm (targetList f.t) [.a] true (fun i _ => do
    markCommitted
    match lowestClosed s.curCtx.regs.streams with
    | none => emitCur (targetList f.t) (.scalar (BitVec.allOnes 64)) 1
    | some h =>
      modCtx s.cur.core s.cur.ctx fun c =>
        { c with regs := { c.regs with streams := vset c.regs.streams h { isOpen := true, key := (i.tok .a).word } } }
      emitCur (targetList f.t) (.scalar (BitVec.ofNat 64 h)) 1) s

/-- The value a key gives at an offset (R121). -/
def rngValue (key o : Word) : Word :=
  let z := key + (o + 1) * 0x9E3779B97F4A7C15
  let z := (z ^^^ (z >>> 30)) * 0xBF58476D1CE4E5B9
  let z := (z ^^^ (z >>> 27)) * 0x94D049BB133111EB
  z ^^^ (z >>> 31)

/-- RNGDRAW (R121), latency 2 (R67). -/
def execRngdraw (f : FmtS) (s : State) : Host.Outcome State Fault Refusal :=
  fireM f.gm (targetList f.t) [.a, .b] false (fun i _ => do
    let h := (i.tok .a).word
    let k := vget {} s.curCtx.regs.streams h.toNat
    if h.toNat > 3 || !k.isOpen then raise 0x02 h
    else emitCur (targetList f.t) (.scalar (rngValue k.key (i.tok .b).word)) 2) s 2

/-- RNGCLOSE (R121). -/
def execRngclose (f : FmtE) (s : State) : Host.Outcome State Fault Refusal :=
  fireM f.gm (targetList f.t) [.a] true (fun i _ => do
    markCommitted
    let h := (i.tok .a).word
    if h.toNat ≤ 3 && (vget {} s.curCtx.regs.streams h.toNat).isOpen then
      modCtx s.cur.core s.cur.ctx fun c => { c with regs := { c.regs with streams := vset c.regs.streams h.toNat {} } }
      emitCur (targetList f.t) (predTok true) 1
    else emitCur (targetList f.t) (predTok false) 1) s

end Sys2Proof.Machine
end

