-- ==== Sys2Proof/Machine/Tasks.lean ====
section
/-! DEFINITION. How a FREE context comes by a task (R80, R86, R87, R349), placement of roots (R88), and migration between
cores (R91, R92). -/

namespace Sys2Proof.Machine

/-! ### A context takes a task -/

/-- What a context holds of a task it takes. -/
def takeTask (core ctx : Nat) (r : Regs) (t : Task) (ph : Phase) : M Unit :=
  modCtx core ctx fun c =>
    { status := .active, gen := c.gen, regs := r, task := t, phase := ph, steal := { last := c.steal.last },
      lastSlot := c.lastSlot, busy := c.busy, pfills := c.pfills }

/-- The trap registers of a task that has arrived: they do not travel (R91), and no rule gives their values, so they are
free (log 16). -/
def freshTrapRegs (r : Regs) : M Regs := do
  let b ← freeBytes 18
  return { r with tcause := BitVec.ofNat 8 (field b 0 1), taddr := fieldWord b 1, tblk := fieldWord b 9,
                  tidx := BitVec.ofNat 7 (field b 17 1) }

/-- The launch defaults (R346). -/
def launchRegs (l : Launch) (ctx : Nat) (r : Regs) : Regs :=
  { r with wspin := l.wspin, wlimit := l.wlimit, tvec := l.tvec, stealdom := l.stealdom
           tsave := if l.tsb == 0 then 0 else l.tsb + BitVec.ofNat 64 (576 * ctx), hf := false }

def State.launchOf (s : State) (n : Nat) : Launch :=
  (s.launch? n).getD { queue := 0, part := 0, cls := 0, tag := 0, entry := 0, arg := 0, n := 0, fmode := 0, stealdom := 0,
                       wspin := 0, wlimit := 0, tvec := 0, tsb := 0 }

/-- A task of the core's partition runs at supervisor level (R102). -/
def State.supCore (s : State) (core : Nat) : Bool := (s.partRec core).sup

/-- Registers of a task at its start (Table 4 of R80; the trap registers are 0, Table 2 of R101). -/
def startRegs (s : State) (core ctx : Nat) (d : DequeRec) : Regs :=
  let l := s.launchOf d.launch
  let w := (s.core core).regs.partw
  let base := stackBase w ctx
  let g : Vector Word 16 := vset (vset (vset (vset (vset (Vector.replicate 16 0) 0 d.arg0) 1 d.arg1) 2 d.join) 14
    (BitVec.ofNat 64 (base + stackBytes w))) 15 (BitVec.ofNat 64 base)
  launchRegs l ctx { g := g, slimit := BitVec.ofNat 64 (base + 512), fmode := l.fmode }

/-- Start the task of a deque record on a context (R80, R368). -/
def startTask (core ctx : Nat) (d : DequeRec) (fails : BitVec 16) : M Unit := do
  let s ← getS
  let t : Task := { gtid := d.gtid, launch := d.launch, sup := s.supCore core, enq := d.stamp, deq := s.clk.setWidth 48,
                    fails := fails }
  takeTask core ctx (startRegs s core ctx d) t (.fetch d.entry s.clk.toNat)

/-- Registers of a task that arrives (R91). -/
def arriveRegs (s : State) (core ctx : Nat) (p : Packed) : Regs :=
  let w := (s.core core).regs.partw
  let base := stackBase w ctx
  let r := p.regs
  launchRegs (s.launchOf p.task.launch) ctx
    { r with g := vset (vset r.g 14 (BitVec.ofNat 64 (base + stackBytes w))) 15 (BitVec.ofNat 64 base)
             slimit := BitVec.ofNat 64 base + toWord p.sl.toInt }

/-- A task out of the arrival queue. -/
def arriveTask (core ctx : Nat) (p : Packed) : M Unit := do
  let s ← getS
  let r ← freshTrapRegs (arriveRegs s core ctx p)
  takeTask core ctx r { p.task with deq := s.clk.setWidth 48 } (.fetch p.cont s.clk.toNat)

/-- The context does nothing for n more slots. -/
def delay (core ctx n : Nat) : M Unit :=
  modCtx core ctx fun c =>
    { c with busy := c.busy + 16 * n
             phase := match c.phase with
               | .fetch a t => .fetch a (t + 16 * n)
               | p => p }

/-- Restore a task from its park record, which takes 8 slots (R86, R182), and hand it what ended its park (R187, R217). -/
def restoreParked (core ctx p : Nat) (ps : PSlot) (how : Option Word) : M Unit := do
  let s ← getS
  let bs ← readRecord core p 0 576
  let t := s.clk.toNat
  let blk := fieldWord bs 0
  freeSlotOf core p
  takeTask core ctx (recordRegs bs) ps.task (.restore blk (t + 128))
  modCtx core ctx fun c => { c with busy := t + 128 }
  let idx := BitVec.ofNat 7 ps.idx
  match how, ps.on with
  | none, _ =>
    enterTrap core ctx 0x07 (fieldWord bs 32) blk idx
    delay core ctx 8
  | some v, .resolve _ _ addr _ _ =>
    if v != 0 then
      resolveTask core ctx v addr blk idx
      delay core ctx 8
  | some _, _ => pure ()

/-! ### Sources of work (R86, R349) -/

/-- The class a context is reserved for: contexts of the partition's first core, from ctx15 downward (R349). -/
def State.reservedFor (s : State) (core ctx : Nat) : Option Nat :=
  let p := s.partRec core
  let n := 15 - ctx
  if s.logical core != 0 || (s.owner (core / 8)).isNone then none
  else if n < p.q0 then some 0
  else if n < p.q0 + p.q1 then some 1
  else if n < p.q0 + p.q1 + p.q2 then some 2
  else none

/-- The record is root 0 of a launch of a class with a quota (R349). -/
def State.rootClass (s : State) (d : DequeRec) : Option Nat :=
  if d.root0 then
    let c := (s.launchOf d.launch).cls
    if c < 3 then some c else none
  else none

/-- FREE contexts of a core. -/
def State.freeCtxs (s : State) (core : Nat) : List Nat := (List.range 16).filter fun c => (s.ctx core c).status == .free

/-- A reserved context of the class is FREE on the core. -/
def State.reservedFree (s : State) (core cls : Nat) : Bool :=
  (s.freeCtxs core).any fun c => s.reservedFor core c == some cls

/-- Records of the deque a context may take, newest first. -/
def State.takeable (s : State) (core ctx : Nat) : List DequeRec :=
  (s.core core).deque.reverse.filter fun d =>
    match s.reservedFor core ctx, s.rootClass d with
    | some k, c => c == some k
    | none, some c => !s.reservedFree core c
    | none, none => true

/-- The lowest FREE context of its kind goes first. -/
def State.firstFree (s : State) (core ctx : Nat) : Bool :=
  ((s.freeCtxs core).find? fun c => s.reservedFor core c == s.reservedFor core ctx) == some ctx

/-- Contexts of the core may take work: its cluster is owned (R391), no eclipse line is up (R334), no pre-emption holds
the tasks that wait (R336), and no fence is up around it (R340). -/
def State.takesWork (s : State) (core : Nat) : Bool :=
  (s.owner (core / 8)).isSome && (s.partRec core).eclipse.isNone && (s.partRec core).preempt.isNone &&
    !s.fencedHome (.pool core)

/-- FIND_WORK (R86): sources 1 to 3. -/
def execFindWork (core ctx : Nat) (s : State) : Host.Outcome State Fault Refusal :=
  let k := s.core core
  if !(s.takesWork core && s.firstFree core ctx) then act s []
  else
    let own := fun (_ : Unit) => match s.takeable core ctx with
      | [] => act s []
      | d :: _ => runM (do
          modCore core fun k => { k with deque := k.deque.erase d }
          startTask core ctx d 0) s
    if (s.reservedFor core ctx).isSome then own ()
    else match k.requeue, k.arrivals with
      | r :: t, _ => runM (do
          modCore core fun k => { k with requeue := t }
          let parked := fun (p : Nat) (how : Option Word) => do
            match k.pslots.find? fun x => x.1 == p with
            | some (_, ps) => restoreParked core ctx p ps how
            | none => pure ()
          match r with
          | .woken p v => parked p (some v)
          | .waitlim p => parked p none
          | .runnable a regs task halted =>
            let now := s.clk.toNat
            takeTask core ctx regs task (.restore a (now + 128))
            modCtx core ctx fun c => { c with busy := now + 128 }
            if halted then
              modCtx core ctx fun c => { c with status := .halted, haltBy := some .saved, phase := .fetch a 0 }) s
      | [], p :: t => runM (do
          modCore core fun k => { k with arrivals := t }
          arriveTask core ctx p) s
      | [], [] => own ()

/-! ### Stealing (R87) -/

/-- Coordinates of a logical core's cluster (R8). -/
def clusterXY (id : Nat) : Nat × Nat := (id / 8 % 24, id / 8 / 24)

/-- A thief stands in the domain around a record's core (Table 8). -/
def inDomain (dom : BitVec 3) (rec thief : Nat) : Bool :=
  let (x, y) := clusterXY rec
  let (u, v) := clusterXY thief
  match dom.toNat with
  | 1 => rec / 8 == thief / 8
  | 2 => x / 2 == u / 2 && y / 2 == v / 2
  | 3 => x / 12 == u / 12 && y / 6 == v / 6
  | 4 => true
  | _ => false

/-- The victim after the last one tried: logical ids in turn, the thief's own left out. -/
def nextVictim (n self last : Nat) : Nat :=
  let v := (last + 1) % n
  if v == self then (v + 1) % n else v

/-- A context that may steal now: FREE, not reserved, sources 1 to 3 empty, not waiting out a failed round, and the lowest
such context of its core. -/
def State.maySteal (s : State) (core ctx : Nat) : Bool :=
  let k := s.core core
  let ready := fun c => (s.reservedFor core c).isNone && (s.ctx core c).steal.notBefore == 0
  s.takesWork core && k.requeue.isEmpty && k.arrivals.isEmpty && (s.takeable core ctx).isEmpty &&
    ((s.freeCtxs core).find? ready) == some ctx

/-- STEAL_ATTEMPT (R87). -/
def execStealAttempt (core ctx : Nat) (s : State) : Host.Outcome State Fault Refusal :=
  let part := s.partOf core
  let n := 8 * (s.partRec core).map.length
  if !(s.maySteal core ctx) then act s []
  else runM (do
    let me := s.logical core
    let st := (s.ctx core ctx).steal
    let v := nextVictim n me st.last
    countCore core 0x10 ctx
    let hit := (s.phys part v).bind fun k =>
      if s.fencedHome (.pool k) then none else ((s.core k).deque.find? fun d => inDomain d.domain v me).map fun d => (k, d)
    match hit with
    | some (k, d) =>
      modCore k fun c => { c with deque := c.deque.erase d }
      modCtx core ctx fun c => { c with steal := { st with last := v } }
      startTask core ctx d st.fails
    | none =>
      countCore core 0x11 ctx
      let round := st.tried + 1 ≥ n - 1
      modCtx core ctx fun c => { c with steal := {
        last := v, tried := if round then 0 else st.tried + 1, fails := sat16 st.fails
        notBefore := if round then s.clk.toNat + 256 else 0 } }) s

/-- STEAL_BACKOFF_EXPIRY (R87). -/
def execStealBackoffExpiry (core ctx : Nat) (s : State) : Host.Outcome State Fault Refusal :=
  let c := s.ctx core ctx
  if c.steal.notBefore != 0 && c.steal.notBefore ≤ s.clk.toNat then
    act s [.ctx core ctx { c with steal := { c.steal with notBefore := 0 } }]
  else act s []

/-! ### Roots (R88) -/

/-- ROOT_PLACEMENT (R88): the next root of a launch, once its core's deque has room. Held while the partition is being
pre-empted (R336) or its eclipse line is up (R334), and while the core is fenced (R340). -/
def execRootPlacement (launch : Nat) (s : State) : Host.Outcome State Fault Refusal :=
  match s.launch? launch with
  | none => act s []
  | some l =>
    match s.part? l.part with
    | none => act s []
    | some p =>
      let i := l.placed
      let id := i % (8 * p.map.length)
      match physIn p id with
      | none => act s []
      | some k =>
        if l.n ≤ i || p.eclipse.isSome || p.preempt.isSome || s.fencedHome (.pool k) || (s.core k).deque.length ≥ 64 then
          act s []
        else runM (do
          let seq := (s.core k).seq + 1
          let d : DequeRec := {
            entry := l.entry, arg0 := BitVec.ofNat 64 i, arg1 := l.arg, join := 0, gtid := gtidOf id seq,
            domain := l.stealdom, stamp := s.clk.setWidth 48, launch := launch, root0 := i == 0 }
          modCore k fun c => { c with seq := seq, deque := c.deque ++ [d] }
          modLaunch launch fun x => { x with placed := i + 1, live := x.live + 1 }) s

/-! ### Migration (R92) -/

/-- MIGRATION_ARRIVAL (R92): accepted, and the origin context becomes FREE; or refused with a NACK when the queue is full or
the partition is being pre-empted (R336). Held while the eclipse line is up (R334); a fenced umbra answers with its NACK
(R340). -/
def execMigrationArrival (core : Nat) (s : State) : Host.Outcome State Fault Refusal :=
  match s.net.migs.find? fun x => x.1 == core with
  | none => act s []
  | some x =>
    let p := x.2
    if (s.partRec core).eclipse.isSome then act s []
    else runM (do
      modNet fun n => { n with migs := n.migs.erase x }
      if (s.ctx p.src p.srcCtx).gen == p.srcGen then
        if s.fencedHome (.pool core) then umbraNack p.src p.srcCtx p.srcGen
        else if (s.core core).arrivals.length ≥ 8 || (s.partRec core).preempt.isSome then
          modNet fun n => { n with migNacks := n.migNacks ++ [(p.src, p.srcCtx, p.srcGen)] }
        else
          let stamp := s.clk.setWidth 48
          let q : Packed := { p with stamp := stamp, task := { p.task with enq := stamp, fails := 0, parks := 0 } }
          modCore core fun k => { k with arrivals := k.arrivals ++ [q] }
          countCore core 0x13 0
          countCore p.src 0x12 0
          almanac p.src p.srcCtx 3
          freeCtx p.src p.srcCtx) s

/-- MIGRATION_NACK (R92): the origin tries again 256 clocks later. One of an earlier generation is discarded and counted
(R93). -/
def execMigrationNack (core ctx : Nat) (s : State) : Host.Outcome State Fault Refusal :=
  match s.net.migNacks.find? fun x => x.1 == core && x.2.1 == ctx with
  | none => act s []
  | some x => runM (do
      modNet fun n => { n with migNacks := n.migNacks.erase x }
      if (s.ctx core ctx).gen != x.2.2 then stale core
      else
        countCore core 0x14 0
        match (s.ctx core ctx).phase with
        | .migWait a k => modCtx core ctx fun c => { c with phase := .migRetry a k (s.clk.toNat + 256) }
        | _ => pure ()) s

/-- MIGRATION_RETRY_EXPIRY (R92). -/
def execMigrationRetryExpiry (core ctx : Nat) (s : State) : Host.Outcome State Fault Refusal :=
  let c := s.ctx core ctx
  match c.phase with
  | .migRetry a k t =>
    if c.status == .active && t ≤ s.clk.toNat then
      runM (do
        modNet fun n => { n with migs := n.migs ++ [(k, packTask c core ctx a.toNat)] }
        modCtx core ctx fun c => { c with phase := .migWait a k }) s
    else act s []
  | _ => act s []

end Sys2Proof.Machine
end

