-- ==== Sys2Proof/Machine/Contain.lean ====
section
/-! DEFINITION. The eclipse line and the stop area (R334, R335), and the containment of an umbra (R339 to R341). -/

namespace Sys2Proof.Machine

/-! ### Engine jobs that stop (R243, R285, R288, R312) -/

/-- The job each engine of a partition is running stops at its next boundary: cause 4 pre-emption, 5 eclipse line. -/
def stopJobs (part cause : Nat) : M Unit := do
  for cl in (((← getS).part? part).getD {}).map do
    for e in List.range 3 do
      match vget none ((← getCluster cl).current) e with
      | some slot => modJob cl slot fun j => { j with stopping := if j.st == .running then some cause else j.stopping }
      | none => pure ()

/-- A job as it goes on: a stopped one is ready, and after a pre-emption a CPYX starts again at frame F (R243); one that has
not come to its boundary does not stop there. -/
def Job.continued (j : Job) (preempted : Bool) : Job :=
  if j.st != .stopped then { j with stopping := none }
  else { j with st := .ready
                chunks := if preempted then j.chunks.filter fun x => x.1 < j.leading else j.chunks }

/-- Stopped jobs go on, ahead of those that have not started (R233, R335, R338). -/
def continueJobs (part : Nat) (preempted : Bool) : M Unit := do
  for cl in (((← getS).part? part).getD {}).map do
    for i in List.range 64 do
      modSlot cl i fun q => { q with job := q.job.map fun j => j.continued preempted }

/-! ### The eclipse line -/

def sourceNumber : EclipseSource → Nat
  | .halt => 1
  | .debugger => 2
  | .watchpoint => 3
  | .containment => 4
  | .controller => 5

/-- A context meets the raise: a block that has not reached its commit point aborts, one whose commit point is on its way
aborts if it comes back unperformed, a fill is given up (Table 5). -/
def eclipseCtx (core ctx : Nat) : M Unit := do
  let c ← getCtx core ctx
  if c.status == .active then
    match c.phase with
    | .run =>
      if !c.win.committed then abort core ctx (.fetch c.win.addr 0)
      else modCtx core ctx fun c => c.onWin fun w => { w with doomed := true }
    | .fill a => modCtx core ctx fun c => { c with phase := .fetch a 0, win := {} }
    | _ => pure ()

/-- ECLIPSE_RAISE (R334, R335): the line goes up, unless it is up already. -/
def execEclipseRaise (part : Nat) (src : EclipseSource) (s : State) : Host.Outcome State Fault Refusal :=
  match s.part? part with
  | none => act s []
  | some p =>
    match p.raises.find? fun x => x.1 == src with
    | none => act s []
    | some x =>
      runM (do
        modPart part fun p => { p with raises := p.raises.erase x }
        if p.eclipse.isNone then
          modPart part fun p => { p with eclipse := some { source := sourceNumber src, gtid := x.2, clk := s.clk.toNat } }
          for y in s.ctxsOf part do eclipseCtx y.1 y.2
          stopJobs part 5) s

/-- The block a context would execute next. -/
def Ctx.nextBlock (c : Ctx) : Word :=
  match c.phase with
  | .fetch a _ | .fill a | .restore a _ | .migDrain a _ | .migWait a _ | .migRetry a _ _ | .after (.fetch a _)
  | .after (.postRetry a _) | .after (.halt a) | .after (.migrate a _) => a
  | .after (.trap _ _ blk _ _) => blk
  | .after .resolve => (match c.wait with
    | some w => (match w.on with
      | .resolve _ _ _ blk _ => blk
      | _ => c.win.addr)
    | none => c.win.addr)
  | _ => c.win.addr

/-- The context has come to rest under the line. -/
def Ctx.atRest (c : Ctx) : Bool :=
  match c.status with
  | .free | .halted | .parked => true
  | .active => (match c.phase with
    | .migWait _ _ | .migRetry _ _ _ => true
    | .after .resolve | .after (.postRetry _ _) => !c.loadsOut
    | _ => false)

/-- A context entry of the stop area (Table 7). -/
def ctxEntry (c : Ctx) (free : Bool) : List Byte :=
  let st := if free then 0 else match c.status with
    | .free => 0
    | .parked => 2
    | .halted => if c.haltBy == none || c.haltBy == some .line then 1 else 3
    | .active => 1
  if st == 0 then bytesOf 8 (c.gen.toNat * 256) ++ bytesOf 24 0
  else bytesOf 8 (st + c.gen.toNat * 256 + (if c.regs.hf then 2 ^ 16 else 0)) ++ bytesOf 8 c.task.gtid.toNat ++
    bytesOf 8 c.nextBlock.toNat ++ bytesOf 8 c.regs.xsig.toNat

/-- An engine entry of the stop area. -/
def engineEntry (c : Cluster) (e : Nat) : List Byte :=
  match c.slots.find? fun x => (x.2.job.map fun j => j.engine == e && j.st == .stopped).getD false with
  | some (i, q) =>
    let j := q.job.getD { engine := e, desc := [], gtid := 0, core := 0, ctx := 0, asid := 0, part := 0, form := (0, 0), w := (0, 0) }
    let w2 := if e == 0 then field j.desc 8 8 else if e == 1 then field j.desc 16 8 else j.done
    bytesOf 8 (1 + i * 256 + q.gen.toNat * 2 ^ 16) ++ bytesOf 8 j.gtid.toNat ++ bytesOf 8 w2 ++ bytesOf 8 j.stop ++ bytesOf 32 0
  | none => bytesOf 64 0

/-- The cluster's umbra contains (R340): its contexts are written as FREE. -/
def State.containing (s : State) (cl : Nat) : Bool :=
  match umbraOf s.mgmt.umbrae cl with
  | some u => u.stage != .ok
  | none => false

/-- Entries of one cluster: 4,288 of the 4,608 bytes between one cluster's first and the next one's (Table 6). -/
def clusterEntries (s : State) (cl : Nat) : List Byte :=
  let free := s.containing cl
  ((List.range 8).flatMap fun k => (List.range 16).flatMap fun c => ctxEntry (s.ctx (8 * cl + k) c) free) ++
    (List.range 3).flatMap fun e => if free then bytesOf 64 0 else engineEntry (s.cluster cl) e

/-- A job of the partition has requests on their way (R199), or has still to come to the boundary it stops at. -/
def State.jobsOut (s : State) (p : Partition) : Bool :=
  p.map.any fun k => (s.cluster k).slots.any fun x => (x.2.job.map fun j => j.out != 0 || j.stopping.isSome).getD false

/-- STOP_AREA_WRITE (R334): once every context and engine has come to rest, or the bound of 4,096 clocks is reached; the
header last. -/
def execStopAreaWrite (part : Nat) (s : State) : Host.Outcome State Fault Refusal :=
  match s.part? part with
  | none => act s []
  | some p =>
    match p.eclipse with
    | none => act s []
    | some e =>
      let rest := (s.ctxsOf part).all fun x => (s.ctx x.1 x.2).atRest || s.containing (x.1 / 8)
      let rest := rest && !s.jobsOut p
      if e.written || !(rest || e.clk + 4095 ≤ s.clk.toNat) then act s []
      else runM (do
        for x in p.map.zipIdx do pokes (farKey (p.stopa + 64 + 4608 * x.2)) (clusterEntries s x.1)
        pokes (farKey p.stopa)
          (bytesOf 8 (e.source + p.map.length * 2 ^ 16) ++ bytesOf 8 e.gtid.toNat ++ bytesOf 8 e.clk ++ bytesOf 40 0)
        modPart part fun p => { p with eclipse := some { e with written := true } }) s

/-- Release of the line (R335): contexts halted by it go on, engines continue. -/
def releaseLine (part : Nat) : M Unit := do
  let s ← getS
  modPart part fun p => { p with eclipse := none }
  for x in s.ctxsOf part do
    modCtx x.1 x.2 fun c =>
      if c.status == .halted && (c.haltBy == none || c.haltBy == some .line) then { c with status := .active, haltBy := none }
      else c
  if ((s.part? part).getD {}).preempt.isNone then continueJobs part false

/-! ### Ends forced from outside (R333, R340) -/

/-- The task of a context is terminated: its block aborts, its park is undone, then it drains. -/
def terminateCtx (core ctx : Nat) : M Unit := do
  let c ← getCtx core ctx
  let unparkAt := fun (p : Nat) => do
    match (← getCore core).pslots.find? fun x => x.1 == p with
    | some (_, ps) =>
      let _ ← takeEntry core p ps
      freeSlotOf core p
    | none => pure ()
  match c.phase with
  | .run =>
    modCtx core ctx fun c => { c with status := .active }
    abort core ctx .terminate
  | .parkDrain p | .parkWrite p =>
    unparkAt p
    kill core ctx
  | .migWait _ _ =>
    modNet fun n => { n with
      migs := n.migs.filter fun x => !(x.2.src == core && x.2.srcCtx == ctx && x.2.srcGen == c.gen) }
    kill core ctx
  | .after k =>
    match k with
    | .park p => unparkAt p
    | _ => pure ()
    if c.loadsOut then modCtx core ctx fun c => { c with phase := .after .terminate, wait := none }
    else kill core ctx
  | .killing => pure ()
  | _ => kill core ctx

/-- NACK_RECEIVED (R340): the access is gone, the block aborts, and the task is terminated, one that drains after its TEND
too. -/
def execNackReceived (core ctx : Nat) (s : State) : Host.Outcome State Fault Refusal :=
  match s.net.umbraNacks.find? fun x => x.1 == core && x.2.1 == ctx with
  | none => act s []
  | some x => runM (do
      modNet fun n => { n with umbraNacks := n.umbraNacks.erase x }
      if (s.ctx core ctx).gen == x.2.2 && (s.ctx core ctx).status != .free then
        countCore core 0x14 0
        modCtx core ctx fun c => { c with accs := c.accs.filter fun a => !a.nacked }
        terminateCtx core ctx
      else stale core) s

/-! ### Containment (R340) -/

def clustersOf (u : Umbra) : List Nat :=
  (List.range 576).filter fun k => u.x0 ≤ k % 24 && k % 24 ≤ u.x1 && u.y0 ≤ k / 24 && k / 24 ≤ u.y1

def State.umbra? (s : State) (id : Nat) : Option Umbra := s.mgmt.umbrae.find? fun u => u.id == id

def setStage (id : Nat) (st : UmbraStage) : M Unit :=
  modMgmt fun m => { m with umbrae := m.umbrae.map fun u => if u.id == id then { u with stage := st } else u }

/-- CONTAINMENT (R340): the eclipse line of every partition with a cluster in the umbra is to be raised, source 4. -/
def execContainment (umbra : Nat) (s : State) : Host.Outcome State Fault Refusal :=
  match s.umbra? umbra with
  | some u =>
    if u.stage == .consumed then
      runM (do
        for p in s.parts do
          if p.2.map.any fun k => (clustersOf u).contains k then requestRaise p.1 .containment 0
        setStage umbra .raised) s
    else act s []
  | none => act s []

/-- UMBRA_FENCE (R340). -/
def execUmbraFence (umbra : Nat) (s : State) : Host.Outcome State Fault Refusal :=
  match s.umbra? umbra with
  | some u => if u.stage == .raised then runM (setStage umbra .fenced) s else act s []
  | none => act s []

/-- Tasks a core holds: those of its contexts, deque, arrival queue, park slots, and tasks to be restored. -/
def launchesOn (s : State) (core : Nat) : List Nat :=
  let k := s.core core
  ((List.range 16).filterMap fun c =>
      let x := s.ctx core c
      if x.status == .free then none else some x.task.launch) ++
    k.deque.map (·.launch) ++ k.arrivals.map (·.task.launch) ++
    (k.pslots.filterMap fun x => if x.2.st == .reserved then none else some x.2.task.launch) ++
    k.requeue.filterMap fun r => match r with
      | .runnable _ _ t _ => some t.launch
      | _ => none

/-- Reset of a cluster's cores and engines (R340, R391): pools 0 and EMPTY, contexts FREE with their generations advanced,
queues and tables empty, job slots free with their generations advanced, privileged registers and counters 0. The task
sequence counters go on (log 18). -/
def resetCluster (cl : Nat) : M Unit := do
  for i in List.range 8 do
    let k := 8 * cl + i
    eff (.wipe (poolKey k 0) (poolKey (k + 1) 0))
    eff (.wipeSync (poolKey k 0 / 8) (poolKey (k + 1) 0 / 8))
    for c in List.range 16 do
      modCtx k c fun x => { status := .free, gen := x.gen + 1, lastSlot := x.lastSlot }
    modCore k fun c => { seq := c.seq }
    let lo := poolKey k 0
    let hi := poolKey (k + 1) 0
    let e := (← getS).errs
    let out := fun (a : Nat) => a < lo || hi ≤ a
    eff (.errs { e with single := e.single.filter out, double := e.double.filter out })
  let slots := (← getCluster cl).slots
  let fresh := (List.range 64).map fun i => (i, ({ gen := (sget {} i slots).gen + 1 } : QSlot))
  modCluster cl fun _ => { slots := fresh }

/-- Requests that stand at the homes of a cluster are answered with NACKs. -/
def nackHomes (cl : Nat) : M Unit := do
  let here := fun (h : Home) => match h with
    | .pool k => k / 8 == cl
    | .far _ => false
  for x in (← getS).net.homes.filter fun x => here x.1 do
    let r := x.2
    if r.core / 8 != cl then nackReq r
  modNet fun n => { n with homes := n.homes.filter fun x => !here x.1 }

/-- Requests of the engines of a cluster that have not been performed leave their data as it stood. -/
def dropEngineWrites (cl : Nat) : M Unit :=
  let theirs := fun (r : Req) => r.eng.isSome && r.core / 8 == cl
  modNet fun n => { n with channels := n.channels.filter fun x => !theirs x.2.2, homes := n.homes.filter fun x => !theirs x.2 }

/-- UMBRA_RESET (R340). -/
def execUmbraReset (umbra : Nat) (s : State) : Host.Outcome State Fault Refusal :=
  match s.umbra? umbra with
  | some u =>
    if u.stage == .fenced then
      runM (do
        for cl in clustersOf u do
          nackHomes cl
          dropEngineWrites cl
          for i in List.range 8 do
            for l in launchesOn (← getS) (8 * cl + i) do endTask l true
          resetCluster cl
        setStage umbra .reset) s
    else act s []
  | none => act s []

/-- Send an MSI-X message, or hold it while the vector is masked (R355). -/
def signal (port vec : Nat) : M Unit :=
  modPort port fun p =>
    if p.masked.getLsbD vec then { p with pending := p.pending ||| BitVec.ofNat 64 (2 ^ vec) }
    else { p with sent := p.sent ++ [vec] }

/-- A device event: vector 1 on both ports, recorded in EVENT (R355); a field of the event replaces the one before it. -/
def deviceEvent (clear bits : Word) : M Unit := do
  for i in List.range 2 do
    modPort i fun p => { p with event := (p.event &&& ~~~clear) ||| bits }
    signal i 1

/-- CONTAINMENT_NOTICE (R340): recorded in flash, vector 1 signalled, and a kind-8 notice posted to every affected
partition, at the first of its clusters outside the umbra that has a pager area. -/
def execContainmentNotice (umbra : Nat) (s : State) : Host.Outcome State Fault Refusal :=
  match s.umbra? umbra with
  | some u =>
    if u.stage == .reset then
      runM (do
        let cs := clustersOf u
        modMgmt fun m => { m with flash := { m.flash with containments := m.flash.containments ++ [umbra] } }
        deviceEvent (BitVec.ofNat 64 (63 * 2 ^ 32)) (BitVec.ofNat 64 (2 ^ 3 + umbra * 2 ^ 32))
        for p in s.parts do
          if p.2.map.any cs.contains then
            match p.2.map.find? fun k => !cs.contains k && (s.pager k).isSome with
            | some k => notice k 0x10 0 0 0 0 (BitVec.ofNat 64 umbra)
            | none => pure ()
        setStage umbra .noticed) s
    else act s []
  | none => act s []

/-! ### The scrubber (R166) -/

/-- POOL_SCRUB (R166): the next word in turn is read, in a clock in which nothing else asks for the port; a double-bit
error is reported to the supervisor and not consumed. -/
def execPoolScrub (core word : Nat) (s : State) : Host.Outcome State Fault Refusal :=
  if 4608 ≤ core || word != (s.core core).scrubNext || s.portBusy (.pool core) || s.net.homes.any fun x => x.1 == .pool core then
    act s []
  else runM (do
    holdRange core (8 * word) 8
    modCore core fun k => { k with scrubNext := (word + 1) % (poolSize / 8) }
    if (← eccRead core (8 * word) 8).isSome then
      notice (core / 8) 0x10 0 0 0 0 (coreAddr (s.logical core) (8 * word))) s

end Sys2Proof.Machine
end

