-- ==== Sys2Proof/Machine/Dde.lean ====
section
/-! DEFINITION. Decision-diagram spaces and the DDE (R290 to R313, R382, R383): the space descriptor, nodes, the unique
table and mk, the op cache, the DIAG jobs. -/

namespace Sys2Proof.Machine

/-! ### The space (R291, R292, R302) -/

/-- A region: physical core and pool offset. -/
abbrev Reg := Nat × Nat

/-- A space as a job sees it once its checks have passed. -/
structure DSpace where
  d : Reg
  n : Reg
  u : Reg
  c : Reg
  t : Reg
  k : Reg := (0, 0)
  w : Reg := (0, 0)
  o : Reg := (0, 0)
  /-- NBASE, OBASE and NCAP as read. -/
  nbase : Nat
  obase : Nat
  ncap : Nat
  ubits : Nat
  cbits : Nat
  nvars : Nat
  stkn : Nat
  deriving DecidableEq, Repr

/-- The frames' depth limit ends the job (R303). -/
def depthEnd {α : Type} : E α := finish 0x04 0x100000

/-- The address names a core of another cluster (R292). -/
def State.abroad (s : State) (part cl : Nat) (a : Word) : Bool :=
  match classify a 1 with
  | .core id _ => (s.phys part id).any fun k => k / 8 != cl
  | _ => false

/-- Resolve an address of the job under R292: in a pool of the cluster, with the rights. Used inside one operation. -/
def rawReg (a : Word) (n : Nat) (need : Rights) : E Reg := do
  let j ← getJob
  let cl ← jobCl
  if (← onM getS).abroad j.part cl a then finish 0x05 (a.toNat % 2 ^ 24)
  match ← onM (reach (← ctxVia j.core need) a n) with
  | .ok (.pool k off) => if k / 8 == cl then return (k, off) else finish 0x05 (a.toNat % 2 ^ 24)
  | .nack => throw .nack
  | _ => finish 0x05 (a.toNat % 2 ^ 24)

def ddeReg (a : Word) (n : Nat) (need : Rights) : E Reg := do
  let r ← prim do
    let x ← rawReg a n need
    return [x.1, x.2]
  return (r.headD 0, r.getD 1 0)

def regRead (r : Reg) (off n : Nat) : E Nat := ownRead r.1 (r.2 + off) n
def regWrite (r : Reg) (off n v : Nat) : E Unit := ownWrite r.1 (r.2 + off) (bytesOf n v)

/-- A field of a record at a region read without keeping the answer: used inside one operation. -/
def rawRead (r : Reg) (off n : Nat) : E Nat := do return ofBytes (← readKept (.pool r.1 (r.2 + off)) n)

/-- NCAP, that of the node area the job has checked. -/
def rawCap (d : Reg) : E Nat := rawRead d 8 4
def rawWrite (r : Reg) (off n v : Nat) : E Unit := writeLoc (.pool r.1 (r.2 + off)) (bytesOf n v)

/-- R302 check 1. -/
def checkJob (sub : Nat) : E Unit := do
  let d := (← getJob).desc
  let f := field d
  if f 8 8 % 64 != 0 then finish 0x04 8
  if f 16 8 % 32 != 0 then finish 0x04 16
  if f 24 4 == 0 && !(sub == 7 || sub == 8) then finish 0x04 24
  if f 28 4 != 0 then finish 0x04 28
  if sub != 6 && f 32 8 != 0 then finish 0x04 32
  if f 40 8 != 0 then finish 0x04 40

/-- The offending field of a space descriptor (R302 check 3). -/
def spaceBad (b : List Byte) : Option Nat :=
  let f := field b
  let x := f 40 8
  if f 0 8 % 16 != 0 then some 0
  else if f 8 4 < 3 || f 8 4 > 2 ^ 24 then some 8
  else if f 12 4 < 2 || f 12 4 > f 8 4 then some 12
  else if f 16 8 % 4 != 0 then some 16
  else if f 24 4 != 0 && (f 24 4 < 2 || f 24 4 ≥ f 12 4) then some 24
  else if f 32 8 % 16 != 0 then some 32
  else if bits x 4 0 > 24 || bits x 7 5 != 0 then some 40
  else if bits x 12 8 > 20 || bits x 15 13 != 0 then some 41
  else if bits x 31 16 == 0 then some 42
  else if bits x 63 56 != 0 then some 47
  else if f 48 8 % 2 != 0 then some 48
  else if f 60 4 != 0 then some 60
  else none

def rwRights : Rights := { r := true, w := true }

/-- Checks 1 to 4 of R302. -/
def openSpace (sub : Nat) : E DSpace := do
  checkJob sub
  let j ← getJob
  let d ← ddeReg (fieldWord j.desc 8) 64 rwRights
  let l ← prim do return (← readKept (.pool d.1 d.2) 64).map (·.toNat)
  let b : List Byte := l.map (BitVec.ofNat 8 ·)
  match spaceBad b with
  | some i => finish 0x04 (0x200000 + i)
  | none => pure ()
  let x := field b 40 8
  let ub := bits x 4 0
  let cb := bits x 12 8
  let nv := bits x 31 16
  let stkn := field j.desc 24 4
  let n ← ddeReg (fieldWord b 0) (16 * field b 8 4) rwRights
  let u ← ddeReg (fieldWord b 16) (4 * 2 ^ ub) rwRights
  let c ← ddeReg (fieldWord b 32) (16 * 2 ^ cb) rwRights
  let t ← ddeReg (fieldWord b 48) (4 * nv) rwRights
  let k ← if stkn == 0 then pure (0, 0) else ddeReg (fieldWord j.desc 16) (32 * stkn) { w := true }
  let o ← if sub == 6 then ddeReg (fieldWord j.desc 32) 8 { w := true } else pure (0, 0)
  let w ← if sub == 6 then ddeReg (j.args.getD 1 0) (16 * nv) { r := true } else pure (0, 0)
  setJob fun j => { j with sr := if stkn == 0 then none else some k, area := n, space := some d }
  return { d := d, n := n, u := u, c := c, t := t, k := k, w := w, o := o, nbase := field b 0 8, obase := field b 48 8,
           ncap := field b 8 4, ubits := ub, cbits := cb, nvars := nv, stkn := stkn }

/-! ### Nodes and levels (R293, R295, R296, R298) -/

structure DNode where
  var : Nat
  low : Nat
  high : Nat
  count : Nat
  next : Nat
  marked : Bool
  deriving DecidableEq, Repr

def nodeOfWords (w0 w1 : Nat) : DNode :=
  { var := bits w0 63 48, count := bits w0 47 32, next := bits w0 30 0, marked := w0.testBit 31,
    low := bits w1 31 0, high := bits w1 63 32 }

/-- TOP, and the words of slot n below it. -/
def rawSlot (sp : DSpace) (n : Nat) : E (List Nat) := do
  let top ← rawRead sp.d 12 4
  if n ≥ top then return [top, 2 ^ 64 - 1, 0]
  return [top, ← rawRead sp.n (16 * n) 8, ← rawRead sp.n (16 * n + 8) 8]

def slotOfWords (r : List Nat) : Nat × DNode := (r.headD 0, nodeOfWords (r.getD 1 0) (r.getD 2 0))

/-- Read slot n; TOP is read with it. -/
def dSlotAt (sp : DSpace) (n : Nat) : E (Nat × DNode) := do return slotOfWords (← prim (rawSlot sp n))

/-- A node is valid (R296). -/
def DNode.ok (x : DNode) (sp : DSpace) : Bool := x.var < sp.nvars && x.low != x.high

/-- A slot that holds no valid node ends the job (R295, R296). -/
def validSlot (sp : DSpace) (n : Nat) (x : Nat × DNode) : E DNode := do
  if n ≥ x.1 || !x.2.ok sp then finish 0x04 (n % 2 ^ 24)
  return x.2

/-- The node a reference names. -/
def dnodeAt (sp : DSpace) (n : Nat) : E DNode := do validSlot sp n (← dSlotAt sp n)

/-- The same inside one operation. -/
def rawNode (sp : DSpace) (n : Nat) : E DNode := do validSlot sp n (slotOfWords (← rawSlot sp n))

def dLevelOf (sp : DSpace) (v : Nat) : E Nat := regRead sp.t (2 * v) 2

/-- lvl(x) of R307. -/
def lvlOf (sp : DSpace) (x : Nat) : E Nat := do
  if x < 2 then return sp.nvars
  dLevelOf sp (← dnodeAt sp x).var

/-- Level and variable: what stands nearer the root is less (R293). -/
def dRankOf (sp : DSpace) (x : Nat) : E (Nat × Nat) := do
  let n ← dnodeAt sp x
  return (← dLevelOf sp n.var, n.var)

def dRankLt (a b : Nat × Nat) : Bool := a.1 < b.1 || (a.1 == b.1 && a.2 < b.2)

/-- The variable nearest the root among references. -/
def dTopVar (sp : DSpace) (xs : List Nat) : E Nat := do
  let mut best : Option (Nat × Nat) := none
  for x in xs do
    if x ≥ 2 then
      let k ← dRankOf sp x
      best := match best with
        | some b => some (if dRankLt k b then k else b)
        | none => some k
  return (best.map (·.2)).getD 0

/-- Cofactors (R305). -/
def dCofOf (sp : DSpace) (x v : Nat) : E (Nat × Nat) := do
  if x < 2 then return (x, x)
  let n ← dnodeAt sp x
  return if n.var == v then (n.low, n.high) else (x, x)

/-- raise(r) inside an operation (R298). -/
def raiseRaw (sp : DSpace) (r : Nat) : E Unit := do
  if r ≥ 2 then
    let x ← rawNode sp r
    if x.count != 0xFFFF then rawWrite sp.n (16 * r + 4) 2 (x.count + 1)

/-- The software reference of a returned result (R298). -/
def raiseOnce (sp : DSpace) (r : Nat) : E Unit := do
  let _ ← prim do
    raiseRaw sp r
    return []

/-! ### Events (Table 4 of R367) -/

def ddeCount (src : Nat) : E Unit := do onM (countCluster (← jobCl) src)

/-- The end of a DDE step (R312). -/
def ddeStepEnd : E Unit := boundary

/-! ### Frames (R303) -/

/-- w1 of a frame. -/
def frameW1 (third op phase : Nat) : Nat := third + op * 2 ^ 32 + phase * 2 ^ 36

def unknown64 : Nat := 2 ^ 64 - 1

def pushDde (sp : DSpace) (f g third op : Nat) : E Unit := do
  if (← getJob).frames.length ≥ sp.stkn then depthEnd
  else setJob fun j => { j with frames := j.frames ++ [[f % 2 ^ 32 + g % 2 ^ 32 * 2 ^ 32, frameW1 third op 0, unknown64, 0]] }

def popDde : E Unit := setJob fun j => { j with frames := j.frames.dropLast }

/-- Change the words of the innermost frame. -/
def modTopFrame (f : List Nat → List Nat) : E Unit := setJob fun j =>
  { j with frames := j.frames.dropLast ++ (j.frames.getLast?.toList.map f) }

/-- Phase and results of the innermost frame. -/
def setTopFrame (third op phase w2 v : Nat) : E Unit :=
  modTopFrame fun w => [w.headD 0, frameW1 third op phase, w2, v]

def dResults (lo hi : Nat) : Nat := lo % 2 ^ 32 + hi % 2 ^ 32 * 2 ^ 32

/-! ### The unique table (R297) -/

def hash32 (a b c : Nat) : Nat :=
  (a * 0x9E3779B1 % 2 ^ 32) ^^^ (b * 0x85EBCA77 % 2 ^ 32) ^^^ (c * 0xC2B2AE3D % 2 ^ 32)

def bucketOf (sp : DSpace) (v lo hi : Nat) : Nat := hash32 v lo hi % 2 ^ sp.ubits

/-- Walk a chain from n until a node satisfies p: that node and the one before it; 8 nodes to a step. -/
def chainWalk (sp : DSpace) (p : Nat → DNode → Bool) : Nat → Nat → Nat → Nat → E (Option (Nat × Nat))
  | 0, _, _, _ => return none
  | fuel + 1, seen, prev, n => do
    if n == 0 then return none
    let x ← dnodeAt sp n
    if p n x then return some (n, prev)
    if seen % 8 == 7 then ddeStepEnd
    chainWalk sp p fuel (seen + 1) n x.next

/-- Where slot n stands: a slot past the area checked, which only a damaged free list or TOP can name, is checked like any
address (R292). -/
def slotReg (sp : DSpace) (cap n : Nat) : E Reg :=
  if n < cap then return (sp.n.1, sp.n.2 + 16 * n) else rawReg (BitVec.ofNat 64 (sp.nbase + 16 * n)) 16 rwRights

/-- The node slot mk takes: the free list first, then TOP; 0 when the table is full, which raises FAILS. -/
def dTakeSlot (sp : DSpace) (v lo hi b : Nat) : E Nat := do
  let r ← prim do
    let free ← rawRead sp.d 24 4
    let top ← rawRead sp.d 12 4
    let cap ← rawCap sp.d
    let n ← if free != 0 then do
        rawWrite sp.d 24 4 (← rawRead (← slotReg sp cap free) 0 4)
        pure free
      else if top < cap then do
        rawWrite sp.d 12 4 (top + 1)
        pure top
      else do
        rawWrite sp.d 56 4 ((← rawRead sp.d 56 4) + 1)
        pure 0
    if n != 0 then
      let head ← rawRead sp.u (4 * b) 4
      let at_ ← slotReg sp cap n
      rawWrite at_ 0 8 (v * 2 ^ 48 + head)
      rawWrite at_ 8 8 (hi * 2 ^ 32 + lo)
      rawWrite sp.u (4 * b) 4 n
      raiseRaw sp lo
      raiseRaw sp hi
      rawWrite sp.d 28 4 ((← rawRead sp.d 28 4) + 1)
      ddeCount 0x47
    return [n]
  return r.headD 0

/-- NCAP may have been raised while the job was suspended (R294): it is read anew, TOP beside it being the engine's own, and
the node area is checked again. -/
def areaAgain (sp : DSpace) : E Unit := do
  let _ ← prim do
    let b ← readLoc (.pool sp.d.1 (sp.d.2 + 8)) 4
    setJob fun j => { j with kept := j.kept.map (patchWord (poolKey sp.d.1 (sp.d.2 + 8)) b) }
    let _ ← rawReg (BitVec.ofNat 64 sp.nbase) (16 * (← rawCap sp.d)) rwRights
    return []

/-- mk (R297): a full table suspends the job, and mk is repeated when it goes on. -/
def dMkNode (sp : DSpace) (v lo hi : Nat) : Nat → E Nat
  | 0 => return 0
  | fuel + 1 => do
    if lo == hi then
      ddeStepEnd
      return lo
    let b := bucketOf sp v lo hi
    let head ← regRead sp.u (4 * b) 4
    match ← chainWalk sp (fun _ x => x.var == v && x.low == lo && x.high == hi) (← walkFuel) 0 0 head with
    | some (n, _) =>
      let _ ← prim do
        ddeCount 0x46
        return []
      ddeStepEnd
      return n
    | none =>
      let n ← dTakeSlot sp v lo hi b
      if n != 0 then
        modMarks fun m => { m with nodes := m.nodes + 1 }
        ddeStepEnd
        return n
      else
        suspendHere 0x11 (← getJob).frames.length
        areaAgain sp
        dMkNode sp v lo hi fuel

def dMk (sp : DSpace) (v lo hi : Nat) : E Nat := do dMkNode sp v lo hi (← walkFuel)

/-! ### The op cache (R299) -/

def cacheAt (sp : DSpace) (op f g h : Nat) : Nat := 16 * ((hash32 op f g ^^^ (h * 0x27D4EB2F % 2 ^ 32)) % 2 ^ sp.cbits)

def cacheKey (op f g : Nat) : Nat := f % 2 ^ 24 + g % 2 ^ 24 * 2 ^ 24 + op * 2 ^ 48

/-- w1 of the entry on a hit. -/
def cacheProbe (sp : DSpace) (op f g h : Nat) : E (Option Nat) := do
  let r ← prim do
    ddeCount 0x44
    let at_ := cacheAt sp op f g h
    let w0 ← rawRead sp.c at_ 8
    let w1 ← rawRead sp.c (at_ + 8) 8
    if w0 == cacheKey op f g && (op != 10 || w1 % 2 ^ 24 == h) then
      ddeCount 0x45
      return [1, w1]
    else return [0]
  return if r.headD 0 == 1 then r[1]? else none

def insertCache (sp : DSpace) (op f g h w1 : Nat) : E Unit := do
  let _ ← prim do
    let at_ := cacheAt sp op f g h
    rawWrite sp.c at_ 8 (cacheKey op f g)
    rawWrite sp.c (at_ + 8) 8 w1
    return []
  ddeStepEnd

/-- Empty every entry (R307, R309, R382), in one piece: a job that is stopped leaves no entry of an older stamp behind. -/
def wipeCache (sp : DSpace) : E Unit := do
  regWrite sp.c 0 (16 * 2 ^ sp.cbits) 0
  ddeStepEnd

/-! ### Building functions (R305, R306) -/

/-- The truth value of an operator on two terminals (R305). -/
def dTruth (op f g : Nat) : Nat :=
  let a := f == 1
  let b := g == 1
  let r := match op with
    | 1 => a && b
    | 2 => a || b
    | 3 => a != b
    | 4 => !(a && b)
    | 5 => !(a || b)
    | 6 => a == b
    | 7 => !a || b
    | _ => a && !b
  if r then 1 else 0

/-- Table 8. -/
def applyRule (op f g : Nat) : Option Nat :=
  match op with
  | 1 => if f == 0 || g == 0 then some 0 else if f == 1 then some g else if g == 1 || f == g then some f else none
  | 2 => if f == 1 || g == 1 then some 1 else if f == 0 then some g else if g == 0 || f == g then some f else none
  | 3 => if f == g then some 0 else if f == 0 then some g else if g == 0 then some f else none
  | _ => if f < 2 && g < 2 then some (dTruth op f g) else none

/-- The operations that build by two recursive results: push with a probe, low, high, mk, insertion, pop. -/
def dBuild (sp : DSpace) (op f g h third : Nat) (split : E (Nat × E Nat × E Nat)) : E Nat := do
  pushDde sp f (if op ≤ 10 then g else 0) third op
  let hit ← cacheProbe sp op f g h
  ddeStepEnd
  match hit with
  | some w1 =>
    popDde
    ddeStepEnd
    return bits w1 47 24
  | none =>
    let (v, low, high) ← split
    setTopFrame third op 0 unknown64 v
    let lo ← low
    setTopFrame third op 1 (dResults lo 0xFFFFFFFF) v
    let hi ← high
    setTopFrame third op 2 (dResults lo hi) v
    let r ← dMk sp v lo hi
    insertCache sp op f g h ((if op == 10 then h else 0) + r * 2 ^ 24)
    popDde
    ddeStepEnd
    return r

/-- apply (R305). -/
def applyOp (sp : DSpace) (op : Nat) : Nat → Nat → Nat → E Nat
  | 0, _, _ => depthEnd
  | fuel + 1, f0, g0 => do
    match applyRule op f0 g0 with
    | some r => return r
    | none =>
      let f := if op ≤ 6 && f0 > g0 then g0 else f0
      let g := if op ≤ 6 && f0 > g0 then f0 else g0
      dBuild sp op f g 0 0 (do
        let v ← dTopVar sp [f, g]
        let a ← dCofOf sp f v
        let b ← dCofOf sp g v
        return (v, applyOp sp op fuel a.1 b.1, applyOp sp op fuel a.2 b.2))

/-- not (R306). -/
def notOp (sp : DSpace) : Nat → Nat → E Nat
  | 0, _ => depthEnd
  | fuel + 1, f => do
    if f < 2 then return 1 - f
    dBuild sp 9 f 0 0 0 (do
      let n ← dnodeAt sp f
      return (n.var, notOp sp fuel n.low, notOp sp fuel n.high))

/-- ite (R306). -/
def iteOp (sp : DSpace) : Nat → Nat → Nat → Nat → E Nat
  | 0, _, _, _ => depthEnd
  | fuel + 1, f, g, h => do
    if f == 1 then return g
    if f == 0 || g == h then return h
    if g == 1 && h == 0 then return f
    dBuild sp 10 f g h h (do
      let v ← dTopVar sp [f, g, h]
      let a ← dCofOf sp f v
      let b ← dCofOf sp g v
      let c ← dCofOf sp h v
      return (v, iteOp sp fuel a.1 b.1 c.1, iteOp sp fuel a.2 b.2 c.2))

/-- f is a terminal, or stands below v. -/
def dBelow (sp : DSpace) (f v : Nat) : E Bool := do
  if f < 2 then return true
  return dRankLt (← dLevelOf sp v, v) (← dRankOf sp f)

/-- One frame around a result that needs no node of its own: restrict and exists at their variable. -/
def dLeafOp (sp : DSpace) (op f third : Nat) (v : Nat) (key : Nat) (go : E Nat) : E Nat := do
  pushDde sp f 0 third op
  let hit ← cacheProbe sp op f key 0
  ddeStepEnd
  match hit with
  | some w1 =>
    popDde
    ddeStepEnd
    return bits w1 47 24
  | none =>
    setTopFrame third op 0 unknown64 v
    let r ← go
    insertCache sp op f key 0 (r * 2 ^ 24)
    popDde
    ddeStepEnd
    return r

/-- res (R306). -/
def resOp (sp : DSpace) (v b : Nat) : Nat → Nat → E Nat
  | 0, _ => depthEnd
  | fuel + 1, f => do
    if ← dBelow sp f v then return f
    let n ← dnodeAt sp f
    let key := v + b * 2 ^ 16
    if n.var == v then dLeafOp sp 11 f key v key (do return if b == 1 then n.high else n.low)
    else dBuild sp 11 f key 0 key (do return (n.var, resOp sp v b fuel n.low, resOp sp v b fuel n.high))

/-- exq (R306). -/
def exqOp (sp : DSpace) (v : Nat) : Nat → Nat → E Nat
  | 0, _ => depthEnd
  | fuel + 1, f => do
    if ← dBelow sp f v then return f
    let n ← dnodeAt sp f
    if n.var == v then dLeafOp sp 12 f v v v (applyOp sp 2 fuel n.low n.high)
    else dBuild sp 12 f v 0 v (do return (n.var, exqOp sp v fuel n.low, exqOp sp v fuel n.high))

/-! ### Weighted counting (R307) -/

def mul64 (a b : Nat) : Nat := f64.ofVal .rne false (fvMul 0 (f64.decode a) (f64.decode b))
def add64 (a b : Nat) : Nat := f64.ofVal .rne false (fvAdd .rne 0 (f64.decode a) (f64.decode b))
def fma64 (a b c : Nat) : Nat := f64.ofVal .rne false (fvFma .rne 0 (f64.decode a) (f64.decode b) (f64.decode c))

/-- Weights of a variable; a variable past the table, which only a bad order table can name, is checked as it is read. -/
def dWeight (sp : DSpace) (v : Nat) : E (Nat × Nat) := do
  let r ← if v < sp.nvars then pure (sp.w.1, sp.w.2 + 16 * v)
    else ddeReg ((← getJob).args.getD 1 0 + BitVec.ofNat 64 (16 * v)) 16 { r := true }
  return (← regRead r 0 8, ← regRead r 8 8)

/-- The variable at a level; an entry past the table, which only a bad order table can name, is checked as it is read
(R292). -/
def varAtLevel (sp : DSpace) (l : Nat) : E Nat := do
  if l < sp.nvars then regRead sp.t (2 * (sp.nvars + l)) 2
  else regRead (← ddeReg (BitVec.ofNat 64 (sp.obase + 2 * (sp.nvars + l))) 2 rwRights) 0 2

/-- skip(a, b). -/
def skipLevels (sp : DSpace) (a b : Nat) : E Nat := do
  let mut p := one64
  for i in List.range (b - a) do
    let v ← varAtLevel sp (a + i)
    let (w0, w1) ← dWeight sp v
    p := mul64 p (add64 w0 w1)
  return p

/-- cnt (R307). -/
def cntOp (sp : DSpace) (stamp : Nat) : Nat → Nat → E Nat
  | 0, _ => depthEnd
  | fuel + 1, n => do
    if n == 0 then return 0
    if n == 1 then return one64
    pushDde sp n stamp 0 13
    let hit ← cacheProbe sp 13 n stamp 0
    ddeStepEnd
    match hit with
    | some w1 =>
      popDde
      ddeStepEnd
      return w1
    | none =>
      let x ← dnodeAt sp n
      let l ← dLevelOf sp x.var
      setTopFrame 0 13 0 unknown64 x.var
      let c ← cntOp sp stamp fuel x.low
      let lo := mul64 c (← skipLevels sp (l + 1) (← lvlOf sp x.low))
      setTopFrame 0 13 1 lo x.var
      let c ← cntOp sp stamp fuel x.high
      let hi := mul64 c (← skipLevels sp (l + 1) (← lvlOf sp x.high))
      setTopFrame 0 13 2 lo x.var
      let (w0, w1) ← dWeight sp x.var
      let r := fma64 w0 lo (mul64 w1 hi)
      insertCache sp 13 n stamp 0 r
      modMarks fun m => { m with runs := m.runs + 1 }
      popDde
      ddeStepEnd
      return r

/-! ### Marking (R308, R309) -/

/-- Mark a node and every node below it. -/
def markFrom (sp : DSpace) : Nat → Nat → E Unit
  | 0, _ => depthEnd
  | fuel + 1, n => do
    if n < 2 then return ()
    let x ← dnodeAt sp n
    if x.marked then return ()
    pushDde sp n 0 0 15
    let _ ← prim do
      rawWrite sp.n (16 * n + 3) 1 (x.next / 2 ^ 24 + 0x80)
      return []
    setJob fun j => { j with owned := j.owned ++ [n] }
    ddeStepEnd
    markFrom sp fuel x.low
    modTopFrame fun w => [w.headD 0, frameW1 0 15 1, unknown64, 0]
    markFrom sp fuel x.high
    popDde
    ddeStepEnd

/-- Clear every mark before the completion word is written (R296). -/
def dUnmark : E Unit := do
  let ok ← clearMarks
  setJob fun j => { j with owned := [] }
  if !ok then throw .uncorr

/-- References a job holds: its operands and, if it has started, those of its frames (R309). -/
def ddeRefs (j : Job) : List Nat :=
  let a := fun i => (j.args.getD i 0).toNat
  let ops := match j.form.2 with
    | 0 | 9 | 11 => []
    | 1 => [a 0, a 1]
    | 3 => [a 0, bits (a 1) 63 32, bits (a 1) 31 0]
    | _ => [a 0]
  let fr := j.frames.flatMap fun w =>
    let w0 := w.headD 0
    let w1 := w.getD 1 0
    let w2 := w.getD 2 0
    let op := bits w1 35 32
    if op == 14 then []
    else [bits w0 31 0] ++ (if op ≤ 10 then [bits w0 63 32] else []) ++ (if op == 10 then [bits w1 31 0] else []) ++
      (if op == 13 then [] else [bits w2 31 0, bits w2 63 32])
  ops ++ (if j.st == .queued then [] else fr)

/-- The descriptor bytes a DDE job's SP names, whatever the rights are now: as its checks found them, or as the address
resolves before it starts (R309). -/
def Job.spaceAt (s : State) (j : Job) : Option Reg :=
  match j.space, classify (fieldWord j.desc 8) 64 with
  | some r, _ => some r
  | none, .loc off => some (j.core, off)
  | none, .core id off =>
    (s.phys j.part id).bind fun k => (windowOffset (s.core k).windows (asidOf j.asid) off 64 {}).map fun o => (k, o)
  | none, _ => none

/-- Roots the other DDE jobs of the same space hold (R309). -/
def spaceRoots (sp : DSpace) : E (List Nat) := prim do
  let me ← get
  let s ← onM getS
  return (s.cluster me.cl).slots.flatMap fun x => match x.2.job with
    | some j => if x.1 != me.slot && j.engine == 1 && j.form.2 != 11 && j.spaceAt s == some sp.d then ddeRefs j else []
    | none => []

/-- A node leaves its bucket, in which `prev` stands before it, and joins the free list (R309): its children. -/
def unchainNode (sp : DSpace) (n b : Nat) (prev : Option Nat) : E (List Nat) := prim do
  let x := (slotOfWords (← rawSlot sp n)).2
  match prev with
  | some 0 => rawWrite sp.u (4 * b) 4 x.next
  | some p =>
    let w ← rawRead sp.n (16 * p) 4
    rawWrite sp.n (16 * p) 4 (w / 2 ^ 31 * 2 ^ 31 + x.next)
  | none => pure ()
  rawWrite sp.n (16 * n) 8 (0xFFFF * 2 ^ 48 + (← rawRead sp.d 24 4))
  rawWrite sp.n (16 * n + 8) 8 0
  rawWrite sp.d 24 4 n
  rawWrite sp.d 28 4 ((← rawRead sp.d 28 4) + 2 ^ 32 - 1)
  return [x.low, x.high].filter (2 ≤ ·)

/-- A child of a reclaimed node is lowered: whether it is to be reclaimed in turn (R309). -/
def lowerChild (sp : DSpace) (i c : Nat) : E Bool := do
  let r ← prim do
    let y ← rawNode sp c
    if y.count == 0 || y.count == 0xFFFF then return [0]
    rawWrite sp.n (16 * c + 4) 2 (y.count - 1)
    return [if y.count == 1 && !y.marked && c < i then 1 else 0]
  return r.headD 0 == 1

/-- reclaim (R309): the walk of its chain takes steps of 8 nodes, and each reclaim of its cascade is a step of its own
(R312). The references of a reclaimed node that are still to be dropped while a child is reclaimed are kept with the job: a
DGC that is cancelled drops them, so that the counts agree (DEDUCED, log 34). -/
def dReclaim (sp : DSpace) (i : Nat) : Nat → Nat → E Unit
  | 0, _ => pure ()
  | fuel + 1, n => do
    let x := (← dSlotAt sp n).2
    let b := bucketOf sp x.var x.low x.high
    let found ← chainWalk sp (fun m _ => m == n) (← walkFuel) 0 0 (← regRead sp.u (4 * b) 4)
    let kids ← unchainNode sp n b (found.map (·.2))
    setJob fun j => { j with raised := kids ++ j.raised }
    modMarks fun m => { m with nodes := m.nodes + 1 }
    for c in kids do
      let again ← lowerChild sp i c
      setJob fun j => { j with raised := j.raised.erase c }
      if again then
        ddeStepEnd
        dReclaim sp i fuel c
    ddeStepEnd

/-! ### The jobs -/

/-- An operand reference (R295). -/
def dOperand (sp : DSpace) (r : Nat) : E Unit := do
  if r ≥ 2 then
    if r ≥ 2 ^ 32 then finish 0x04 (r % 2 ^ 24)
    let _ ← dnodeAt sp r
    pure ()

def dVariable (sp : DSpace) (v : Nat) : E Unit := do if v ≥ sp.nvars then finish 0x04 (0x300000 + v % 2 ^ 16)

/-- A job that returns a reference: raised once; DETAIL counts the nodes created (R298, R300, R383). -/
def refDone (sp : DSpace) (r : Nat) : E (Nat × Nat × Nat) := do
  raiseOnce sp r
  return (0, min (← getJob).mark.nodes 0xFFFFFF, r)

/-- The program of a DIAG form (Table 5): status, DETAIL, RESULT. The sweep of DGC ends with 0x04 at a slot that holds no valid
node, is not free and has COUNT 0 unmarked, and passes one whose COUNT is not 0 (DESIGN CHOICE, log 56). -/
def diagProg (sub : Nat) : E (Nat × Nat × Nat) := do
  if sub == 11 then progResume 1 [0x11]
  else
    let sp ← openSpace sub
    let j ← getJob
    let b := (j.args.getD 0 0).toNat
    let c := (j.args.getD 1 0).toNat
    let fuel := sp.stkn + 1
    match sub with
    | 0 =>
      dVariable sp b
      pushDde sp b 0 0 14
      ddeStepEnd
      setTopFrame 0 14 2 (dResults 0 1) b
      let r ← dMk sp b 0 1
      popDde
      ddeStepEnd
      refDone sp r
    | 1 =>
      dOperand sp b
      dOperand sp c
      refDone sp (← applyOp sp ((j.args.getD 2 0).toNat + 1) fuel b c)
    | 2 =>
      dOperand sp b
      refDone sp (← notOp sp fuel b)
    | 3 =>
      dOperand sp b
      dOperand sp (bits c 63 32)
      dOperand sp (bits c 31 0)
      refDone sp (← iteOp sp fuel b (bits c 63 32) (bits c 31 0))
    | 4 =>
      dOperand sp b
      dVariable sp (bits c 15 0)
      if bits c 63 17 != 0 then finish 0x04 0x310000
      refDone sp (← resOp sp (bits c 15 0) (bits c 16 16) fuel b)
    | 5 =>
      dOperand sp b
      dVariable sp (bits c 15 0)
      if bits c 63 16 != 0 then finish 0x04 0x310000
      refDone sp (← exqOp sp (bits c 15 0) fuel b)
    | 6 =>
      dOperand sp b
      let st := ((← regRead sp.d 44 3) + 1) % 2 ^ 24
      regWrite sp.d 44 3 st
      if st == 0 then wipeCache sp
      let k ← skipLevels sp 0 (← lvlOf sp b)
      let v ← cntOp sp st fuel b
      regWrite sp.o 0 8 (mul64 k v)
      return (0, 0, (← getJob).mark.runs)
    | 7 | 8 =>
      dOperand sp b
      if b < 2 then return (0, 0, 0xFFFF)
      let n ← dnodeAt sp b
      if sub == 8 && n.count == 0 then finish 0x04 2
      let k := if n.count == 0xFFFF then n.count else if sub == 7 then n.count + 1 else n.count - 1
      regWrite sp.n (16 * b + 4) 2 k
      return (0, 0, k)
    | 9 =>
      let roots ← spaceRoots sp
      for r in roots do
        if r ≥ 2 && r < 2 ^ 32 then
          let (top, x) ← dSlotAt sp r
          if r < top && x.var != 0xFFFF then markFrom sp fuel r
      wipeCache sp
      let top ← regRead sp.d 12 4
      for d in List.range (top - 2) do
        let i := d + 2
        let (_, x) ← dSlotAt sp i
        if x.var != 0xFFFF && x.count == 0 && !x.marked then
          if !x.ok sp then finish 0x04 (i % 2 ^ 24)
          dReclaim sp i top i
      dUnmark
      return (0, 0, (← getJob).mark.nodes)
    | _ =>
      dOperand sp b
      markFrom sp fuel b
      let n := (← getJob).owned.length
      dUnmark
      return (0, 0, n)

/-- DDE_STEP (R312). -/
def execDdeStep (cluster : Nat) (s : State) : Host.Outcome State Fault Refusal :=
  match pickJob s cluster 1 with
  | none => act s []
  | some (slot, j) =>
    runM (do
      countCluster cluster 0x43
      engineGo cluster slot 1 j fun j => diagProg j.form.2) s

/-- DVAR (R304). -/
def execDvar (f : FmtE) (s : State) : Host.Outcome State Fault Refusal := command f [.a, .b] s
/-- DAPP (R305). -/
def execDapp (f : FmtE) (s : State) : Host.Outcome State Fault Refusal := command f [.a, .b, .c] s
/-- DNOT (R306). -/
def execDnot (f : FmtE) (s : State) : Host.Outcome State Fault Refusal := command f [.a, .b] s
/-- DITE (R306). -/
def execDite (f : FmtE) (s : State) : Host.Outcome State Fault Refusal := command f [.a, .b, .c] s
/-- DRES (R306). -/
def execDres (f : FmtE) (s : State) : Host.Outcome State Fault Refusal := command f [.a, .b, .c] s
/-- DEXQ (R306). -/
def execDexq (f : FmtE) (s : State) : Host.Outcome State Fault Refusal := command f [.a, .b, .c] s
/-- DCNT (R307). -/
def execDcnt (f : FmtE) (s : State) : Host.Outcome State Fault Refusal := command f [.a, .b, .c] s
/-- DREF (R308). -/
def execDref (f : FmtE) (s : State) : Host.Outcome State Fault Refusal := command f [.a, .b] s
/-- DUNREF (R308). -/
def execDunref (f : FmtE) (s : State) : Host.Outcome State Fault Refusal := command f [.a, .b] s
/-- DGC (R309). -/
def execDgc (f : FmtE) (s : State) : Host.Outcome State Fault Refusal := command f [.a] s
/-- DSIZE (R308). -/
def execDsize (f : FmtE) (s : State) : Host.Outcome State Fault Refusal := command f [.a, .b] s
/-- DRESUME (R311). -/
def execDresume (f : FmtE) (s : State) : Host.Outcome State Fault Refusal := command f [.a] s

end Sys2Proof.Machine
end

