-- ==== Sys2Proof/Machine/Fps.lean ====
section
/-! DEFINITION. The scalar floating-point forms (R135 to R141). -/

namespace Sys2Proof.Machine

/-- F64 or F32 by WD (R135). A reserved WD of 10 or 11 is taken as F32 (DESIGN CHOICE, log 56). -/
def fpsFmt (wd : Width) : FloatFmt := if wd == .d then f64 else f32

/-- An operand pattern: 64 bits, or bits [31:0] (R135). -/
def fpsBits (wd : Width) (t : Token) : Nat := zext t.word (if wd == .d then 64 else 32)

def fpsVal (wd : Width) (t : Token) : FVal := (fpsFmt wd).decode (fpsBits wd t)

def fpsOut (v : Nat) : Token := .scalar (BitVec.ofNat 64 v)

/-- A form that rounds one exact result under rmode(XF) (R136). -/
def fpsArith (f : FmtA) (slots : List Slot) (lat : Nat) (v : FloatFmt → Rmode → (Slot → FVal) → Nat) (s : State) :
    Host.Outcome State Fault Refusal :=
  pureA f slots lat (fun i sn =>
    fpsOut (v (fpsFmt f.wd) (rmode f.xf.toNat sn.regs.fmode) fun x => fpsVal f.wd (i.tok x))) s

/-- A compare of two values (R139). -/
def fpsCmp (f : FmtA) (p : FVal → FVal → Bool) (s : State) : Host.Outcome State Fault Refusal :=
  pureA f [.a, .b] 1 (fun i _ => predTok (p (fpsVal f.wd (i.tok .a)) (fpsVal f.wd (i.tok .b)))) s

/-- FADD (R136). -/
def execFadd (f : FmtA) (s : State) : Host.Outcome State Fault Refusal :=
  fpsArith f [.a, .b] 1 (fun g m v => g.ofVal m false (fvAdd m 0 (v .a) (v .b))) s

/-- FSUB (R136). -/
def execFsub (f : FmtA) (s : State) : Host.Outcome State Fault Refusal :=
  fpsArith f [.a, .b] 1 (fun g m v => g.ofVal m false (fvSub m 0 (v .a) (v .b))) s

/-- FMUL (R136). -/
def execFmul (f : FmtA) (s : State) : Host.Outcome State Fault Refusal :=
  fpsArith f [.a, .b] 1 (fun g m v => g.ofVal m false (fvMul 0 (v .a) (v .b))) s

/-- FDIV (R136), latency 3 (R67). -/
def execFdiv (f : FmtA) (s : State) : Host.Outcome State Fault Refusal :=
  fpsArith f [.a, .b] 3 (fun g m v => g.div m false (v .a) (v .b)) s

/-- FSQRT (R136), latency 3. -/
def execFsqrt (f : FmtA) (s : State) : Host.Outcome State Fault Refusal :=
  fpsArith f [.a] 3 (fun g m v => g.sqrt m false (v .a)) s

/-- FMA (R136), one rounding. -/
def execFma (f : FmtA) (s : State) : Host.Outcome State Fault Refusal :=
  fpsArith f [.a, .b, .c] 1 (fun g m v => g.ofVal m false (fvFma m 0 (v .a) (v .b) (v .c))) s

/-- FMIN (R137). -/
def execFmin (f : FmtA) (s : State) : Host.Outcome State Fault Refusal :=
  pureA f [.a, .b] 1 (fun i _ =>
    fpsOut ((fpsFmt f.wd).minMax false (fpsBits f.wd (i.tok .a)) (fpsBits f.wd (i.tok .b)))) s

/-- FMAX (R137). -/
def execFmax (f : FmtA) (s : State) : Host.Outcome State Fault Refusal :=
  pureA f [.a, .b] 1 (fun i _ =>
    fpsOut ((fpsFmt f.wd).minMax true (fpsBits f.wd (i.tok .a)) (fpsBits f.wd (i.tok .b)))) s

/-- The sign bit of an operand. -/
def fpsSign (wd : Width) : Nat := 2 ^ (if wd == .d then 63 else 31)

/-- FNEG inverts the sign bit (R138). -/
def execFneg (f : FmtA) (s : State) : Host.Outcome State Fault Refusal :=
  pureA f [.a] 1 (fun i _ => fpsOut (fpsBits f.wd (i.tok .a) ^^^ fpsSign f.wd)) s

/-- FABS clears the sign bit (R138). -/
def execFabs (f : FmtA) (s : State) : Host.Outcome State Fault Refusal :=
  pureA f [.a] 1 (fun i _ => fpsOut (fpsBits f.wd (i.tok .a) % fpsSign f.wd)) s

/-- FCEQ (R139). -/
def execFceq (f : FmtA) (s : State) : Host.Outcome State Fault Refusal := fpsCmp f fvEq s

/-- FCLT (R139). -/
def execFclt (f : FmtA) (s : State) : Host.Outcome State Fault Refusal := fpsCmp f fvLt s

/-- FCLE (R139). -/
def execFcle (f : FmtA) (s : State) : Host.Outcome State Fault Refusal := fpsCmp f (fun a b => fvLt a b || fvEq a b) s

/-- FCUN (R139). -/
def execFcun (f : FmtA) (s : State) : Host.Outcome State Fault Refusal := fpsCmp f (fun a b => a.isNan || b.isNan) s

/-- CVT (R140, R141): XF target tag, Z[3:0] source tag, Z[7:4] rounding override. -/
def execCvt (f : FmtA) (s : State) : Host.Outcome State Fault Refusal :=
  pureA f [.a] 1 (fun i sn =>
    let z := f.z.toNat
    .scalar (tagWord f.xf.toNat (convert (z % 16) f.xf.toNat (rmode (z / 16 % 16) sn.regs.fmode)
      (sn.regs.fmode.getLsbD 2) (i.tok .a).word.toNat))) s

end Sys2Proof.Machine
end

