-- ==== Sys2Proof/Machine/Preempt.lean ====
section
/-! DEFINITION. Pre-emption: its stages, the save records and their return (R336 to R338, R341). -/

namespace Sys2Proof.Machine

/-- The pre-emption of a partition, when it goes on: the eclipse line pauses it (R341). -/
def State.preempt? (s : State) (part : Nat) : Option (Partition × Preempt) :=
  match s.part? part with
  | some p => if p.eclipse.isSome then none else p.preempt.map fun q => (p, q)
  | none => none

/-- The grace period: 2^20 clocks (R336). -/
def graceClocks : Nat := 2 ^ 20

/-- PREEMPT_GRACE_EXPIRY (R336): from now on every block boundary is a blocking point. -/
def execPreemptGraceExpiry (part : Nat) (s : State) : Host.Outcome State Fault Refusal :=
  match s.preempt? part with
  | some (p, q) =>
    if q.stage == .grace && q.clk + graceClocks ≤ s.clk.toNat then
      act s [.part part { p with preempt := some { q with stage := .block } }]
    else act s []
  | none => act s []

/-- PREEMPT_ABORT_EXPIRY (R336): 4,096 clocks later, a block that has not reached its commit point aborts, and one whose
commit point is on its way if it comes back unperformed. -/
def execPreemptAbortExpiry (part : Nat) (s : State) : Host.Outcome State Fault Refusal :=
  match s.preempt? part with
  | some (p, q) =>
    if q.stage == .block && q.clk + graceClocks + 4096 ≤ s.clk.toNat then
      runM (do
        eff (.part part { p with preempt := some { q with stage := .abort } })
        for x in s.ctxsOf part do
          let c ← getCtx x.1 x.2
          if c.status == .active && c.running then abort x.1 x.2 (.fetch c.win.addr 0)
          else if c.status == .active && c.phase == .run then
            modCtx x.1 x.2 fun c => c.onWin fun w => { w with doomed := true }) s
    else act s []
  | none => act s []

/-! ### Blocking points (R336) -/

/-- The context's task can be saved now: halted, or between blocks after the grace period, or in a block that holds an
unfired PAUSE; nothing of its accesses is outstanding (R198), and no trap is owed. R85 does not say whether a PAUSE that
has not issued counts already: the model counts those in flight (DESIGN CHOICE, log 55). -/
def Ctx.saveable (c : Ctx) (st : PreStage) : Bool :=
  let drained := (dropBlock c).isEmpty && c.lost.isNone
  match c.status with
  | .halted => drained
  | .active => (match c.phase with
    | .run => drained && !c.win.committed && !c.win.pauses.isEmpty
    | .fetch _ _ | .fill _ | .restore _ _ | .migRetry _ _ _ => drained && st != .grace
    | .after .resolve | .after (.postRetry _ _) => drained && !c.loadsOut && st != .grace
    | _ => false)
  | _ => false

/-- What the device keeps of a saved task beside its record. -/
def noteSaved (part : Nat) (t : Task) (root : Bool) : M Unit :=
  modPart part fun p => { p with preempt := p.preempt.map fun q => { q with records := q.records + 1, tasks := q.tasks ++ [(t, root)] } }

/-- What a core still has to save, in the order of R337. -/
inductive SaveItem where
  | parked (p : Nat) (ps : PSlot)
  | ctx (c : Nat)
  | requeued (a : Word) (r : Regs) (t : Task) (halted : Bool)
  | arrival (p : Packed)
  | deque (d : DequeRec)
  deriving DecidableEq, Repr

def saveItem (s : State) (core : Nat) : Option SaveItem :=
  let k := s.core core
  match k.pslots.find? fun x => x.2.st != .reserved with
  | some x => some (.parked x.1 x.2)
  | none =>
    match (List.range 16).find? fun c => (s.ctx core c).status != .free with
    | some c => some (.ctx c)
    | none =>
      match k.requeue.findSome? fun r => match r with
        | .runnable a g t h => some (SaveItem.requeued a g t h)
        | _ => none with
      | some i => some i
      | none =>
        match k.arrivals, k.deque with
        | p :: _, _ => some (.arrival p)
        | [], d :: _ => some (.deque d)
        | [], [] => none

/-- Physical cores of a partition, by logical id. -/
def coresOf (p : Partition) : List Nat := p.map.flatMap fun k => (List.range 8).map fun i => 8 * k + i

/-- The next thing to save: core by core in ascending logical id. -/
def nextSave (s : State) (p : Partition) : Option (Nat × SaveItem) :=
  (coresOf p).findSome? fun k => (saveItem s k).map fun i => (k, i)

/-- The record of a deque entry (R337). -/
def dequeRecord (d : DequeRec) (core : Nat) : List Byte :=
  bytesOf 8 d.entry.toNat ++ bytesOf 8 d.arg0.toNat ++ bytesOf 8 d.arg1.toNat ++ bytesOf 8 d.join.toNat ++
    bytesOf 8 d.gtid.toNat ++ bytesOf 8 d.domain.toNat ++ bytesOf 8 d.stamp.toNat ++ bytesOf 40 0 ++
    bytesOf 8 (4 + core * 2 ^ 16) ++ bytesOf 472 0

/-- SLIMIT that an arrival's record holds, so that SLIMIT − g15 is its SL (R91). -/
def arrivalRegs (p : Packed) : Regs := { p.regs with slimit := vget 0 p.regs.g 15 + toWord p.sl.toInt }

/-- Put the records of a core's saved item away, and take the item off the core. -/
def saveOne (part core : Nat) (p : Partition) (q : Preempt) (i : SaveItem) : M Unit := do
  let s ← getS
  let id := s.logical core
  let put := fun (bs : List Byte) => pokes (farKey (p.savea + 64 + 576 * q.records)) bs
  let info := fun (kind : Nat) (blk gtid : Word) (halted : Bool) =>
    ({ blk := blk, gtid := gtid, kind := kind, halted := halted, core := id } : RecInfo)
  match i with
  | .parked n ps =>
    let _ ← takeEntry core n ps
    put (← readRecord core n 0 576)
    freeSlotOf core n
    modCore core fun k => { k with requeue := k.requeue.filter fun r => match r with
      | .woken m _ | .waitlim m => m != n
      | .runnable _ _ _ _ => true }
    noteSaved part ps.task false
  | .ctx c =>
    let x := s.ctx core c
    if x.phase == .run then countCore core 0x09 c
    freeParks core c
    let blk := if x.phase == .run then x.win.addr else x.nextBlock
    let x := { x with task := { x.task with skip := x.skipBack } }
    put (taskRecord x.regs (info 2 blk x.task.gtid (x.status == .halted)))
    freeCtx core c
    noteSaved part x.task false
  | .requeued a r t h =>
    put (taskRecord r (info 2 a t.gtid h))
    modCore core fun k => { k with requeue := k.requeue.erase (.runnable a r t h) }
    noteSaved part t false
  | .arrival a =>
    put (taskRecord (arrivalRegs a) (info 3 a.cont a.task.gtid false))
    modCore core fun k => { k with arrivals := k.arrivals.erase a }
    noteSaved part a.task false
  | .deque d =>
    put (dequeRecord d id)
    modCore core fun k => { k with deque := k.deque.erase d }
    noteSaved part { gtid := d.gtid, launch := d.launch, enq := d.stamp } d.root0

/-- SAVE_RECORD_WRITE (R337): the next record, once its task is at a blocking point; an area too small stops the
saving. -/
def execSaveRecordWrite (part : Nat) (s : State) : Host.Outcome State Fault Refusal :=
  match s.preempt? part with
  | none => act s []
  | some (p, q) =>
    if q.stage == .saved || q.small then act s []
    else match nextSave s p with
      | none => act s []
      | some (core, i) =>
        let ready := match i with
          | .ctx c => (s.ctx core c).saveable q.stage
          | _ => true
        if !ready then act s []
        else if p.saveSize < 64 + 576 * (q.records + 1) then
          act s [.part part { p with preempt := some { q with small := true } }]
        else runM (saveOne part core p q i) s

/-- No task of the partition is left to save, none is on its way between its cores, no wake is, and the requests of its
stopped jobs have been performed. -/
def allSaved (s : State) (p : Partition) : Bool :=
  let cs := coresOf p
  (nextSave s p).isNone && !s.jobsOut p && cs.all (fun k => (s.core k).pslots.isEmpty) &&
    !s.net.migs.any fun x => cs.contains x.2.src && (s.ctx x.2.src x.2.srcCtx).gen == x.2.srcGen

/-- SAVE_HEADER_WRITE (R337): w1, and w0 last; the partition is quiesced. -/
def execSaveHeaderWrite (part : Nat) (s : State) : Host.Outcome State Fault Refusal :=
  match s.preempt? part with
  | none => act s []
  | some (p, q) =>
    if q.stage == .saved || !(q.small || allSaved s p) then act s []
    else runM (do
      pokes (farKey (p.savea + 8)) (bytesOf 8 q.clk ++ bytesOf 48 0)
      pokes (farKey p.savea) (bytesOf 8 (q.records % 2 ^ 32 + (if q.small then 2 ^ 32 else 0)))
      eff (.part part { p with preempt := some { q with stage := .saved } })) s

/-- A partition is quiesced (R336, R337). -/
def Partition.quiesced (p : Partition) : Bool :=
  match p.preempt with
  | some q => q.stage == .saved && !q.small
  | none => false

/-! ### Resumption (R338) -/

/-- The bytes of save record i. -/
def saveRecord (s : State) (p : Partition) (i : Nat) : List Byte := Mem.read s.mem (farKey (p.savea + 64 + 576 * i)) 576

/-- Logical core a record names. -/
def recCore (bs : List Byte) : Nat := field bs 96 8 / 2 ^ 16 % 2 ^ 13

def recKind (bs : List Byte) : Nat := field bs 96 8 % 8

/-- What the device kept of the task with a GTID; none when no such task was saved, or it has been terminated since. -/
def keptTask (q : Preempt) (g : Word) : Option (Task × Bool) := q.tasks.find? fun x => x.1.gtid == g

/-- What a restored park waits on: a job-queue slot, a resolve word of the cluster's pager area, or its own form. For a
resolve word the FAR address is read from the fault record; a kind-3 record holds none, and the address is then open
(log 19). -/
def parkedOn (core : Nat) (cond : BitVec 2) (home off : Nat) (blk : Word) (who : Agent) : M WaitOn := do
  if cond == 0 then return .queue
  match (← getS).pager (core / 8) with
  | some (k, base) =>
    if k == home && base + 0x200 ≤ off && off < base + 0xA00 && (off - base) % 32 == 24 then
      let h := (off - base - 0x200) / 32
      let q := BitVec.ofNat 64 (ofBytes (← agentRead (core / 8) k (base + 8 * h) 8 who))
      let addr ← if wbitsOf q 11 8 == 3 then do pure (BitVec.ofNat 64 (ofBytes (← freeBytes 8)))
        else pure (BitVec.ofNat 64 (ofBytes (← agentRead (core / 8) k (off - 8) 8 who)))
      return .resolve home off addr blk (BitVec.ofNat 7 (wbitsOf q 18 12))
    else return .form
  | none => return .form

/-- Rights the waiting form of a record needs of its word (Table 7 of R169): STF is known by its condition, LDE by the code
that the record's block holds at the form's index (DEDUCED, log 19); each other form reads. -/
def waitNeeds (core : Nat) (blk : Word) (idx : Nat) (cond : BitVec 2) : M Rights := do
  if cond == 2 then return { w := true, s := true }
  let s ← getS
  let reg := (s.core core).regs.asid
  let lde ← match classify (ea blk (12 * (idx + 1))) 12 with
    | .far va => (do
        match ← translate (core / 8) (s.partOf core) (BitVec.ofNat 12 (asidOf reg)) (s1Of reg) va with
        | .ok e => return (match decode (codeAt s.mem (farKey (e.phys va))) with
          | some (.lde _) => true
          | _ => false)
        | _ => return false)
    | _ => pure false
  return { r := true, w := lde, s := true }

/-- Where the awaited word of a record stands: core and pool offset; none when no window admits it. -/
def wakeHome (s : State) (core : Nat) (a : Word) (cond : BitVec 2) (need : Rights) : Option (Nat × Nat) :=
  match classify a 8 with
  | .loc off => some (core, off)
  | .core id off =>
    if cond == 0 then none
    else match (s.phys (s.partOf core) id) with
      | some k => (windowOffset (s.core k).windows (asidOf (s.core core).regs.asid) off 8 need).map fun o => (k, o)
      | none => none
  | _ => none

/-- Where a resolve word stands: a CORE address in the supervisor partition's numbering. -/
def w3Home (s : State) (cl : Nat) (a : Word) : Option (Nat × Nat) :=
  match classify a 8, s.supPart, s.pager cl with
  | .core id off, some p, some (k, base) =>
    if s.phys p id == some k && base + 0x200 ≤ off && off < base + 0xA00 && (off - base) % 32 == 24 then some (k, off) else none
  | _, _, _ => none

/-- The waiter's entry of a returned park, in the wake table of its home or among the waiters of the job queue. -/
def parkAgain (core p : Nat) (ps : PSlot) (entry : Nat) : M Unit := do
  modCore core fun k => { k with pslots := sset p ps k.pslots }
  if ps.cond == 0 then
    modCluster (core / 8) fun c => { c with
      waiters := c.waiters ++ [{ core := core, ctx := ps.ctx, gen := ps.gen, pslot := p, gtid := ps.task.gtid }] }
  else
    let e : WakeEntry := { cond := ps.cond, pslot := p, gen := ps.gen, ctx := ps.ctx, core := core, off := ps.off / 8 }
    modCore ps.home fun k => { k with wakeTable := sset entry e k.wakeTable }
    markWord ps.home (ps.off / 8) ((← getS).syncOf (poolKey ps.home ps.off / 8) ||| 2)

/-- A returned park is re-queued at once, with the value its word holds. -/
def requeueParked (core p : Nat) (ps : PSlot) (v : Word) : M Unit :=
  modCore core fun k => { k with
    pslots := sset p { ps with st := .woken } k.pslots, requeue := k.requeue ++ [.woken p v] }

/-- A parked task comes back: its record into a park slot, then one final attempt (R338, R181): a condition that holds, a
word that can no longer be reached, or a full table re-queues it at once. An attempt that a fence answers with a NACK ends
the task (R340). -/
def returnParked (core : Nat) (bs : List Byte) (task : Task) : M Unit := do
  let s ← getS
  match freePark (s.core core) with
  | none => modCore core fun k => { k with
      requeue := k.requeue ++ [.runnable (fieldWord bs 0) (recordRegs bs) task false] }
  | some p =>
    let w := field bs 40 8
    let cond := BitVec.ofNat 2 w
    let ctx := w / 2 ^ 16 % 256
    let gen := BitVec.ofNat 8 (w / 2 ^ 24)
    let a := fieldWord bs 32
    let blk := fieldWord bs 0
    let idx := w / 256 % 64
    let who := parkAgent s core ctx gen task.gtid
    deviceWrite core (parkAt (s.core core).regs.partw p) bs who
    let w3 := w3Home s (core / 8) a
    let need ← if w3.isSome then pure { r := true, s := true } else waitNeeds core blk idx cond
    let place := if cond == 0 then some (core, 0) else w3.or (wakeHome s core a cond need)
    let (home, off) := place.getD (core, 0)
    let nack := s.nacks (core / 8) home
    let on ← if place.isSome && !nack then parkedOn core cond home off blk who else pure .form
    let ps : PSlot := {
      st := .parked, ctx := ctx, gen := gen, task := task, on := on, cond := cond, home := home, off := off,
      idx := idx, clk := field bs 48 8, blk := blk, addr := a }
    if place.isNone then requeueParked core p ps 0
    else if nack then
      countCore core 0x14 0
      almanacOf core ctx task 2
      endTask task.launch true
    else if cond == 0 then
      let cl ← getCluster (core / 8)
      if (freeSlot cl task.gtid).isSome || cl.waiters.length ≥ 64 then requeueParked core p ps 0 else parkAgain core p ps 0
    else
      let v := fieldWord (← deviceRead (core / 8) home off 8) 0
      homeWatch home off 8 true need.w who
      match freeWake (s.core home) with
      | none => requeueParked core p ps v
      | some i =>
        if condHolds cond ((s.syncOf (poolKey home off / 8)).getLsbD 0) v then requeueParked core p ps v
        else parkAgain core p ps i

/-- One record returns to its core (R338). A core behind the fence of a contained umbra answers with a NACK: the task ends
(R340; DEDUCED, log 46). -/
def returnRecord (core : Nat) (bs : List Byte) (q : Preempt) : M Unit := do
  let s ← getS
  let sup := s.supCore core
  let gtid := if recKind bs == 4 then fieldWord bs 32 else fieldWord bs 8
  match keptTask q gtid with
  | none => pure ()
  | some (t, root) =>
    let task := { t with sup := sup }
    if s.fencedHome (.pool core) then endTask task.launch true
    else match recKind bs with
    | 1 => returnParked core bs task
    | 2 => modCore core fun k => { k with
        requeue := k.requeue ++ [.runnable (fieldWord bs 0) (recordRegs bs) task ((field bs 96 8).testBit 4)] }
    | 3 =>
      let r := recordRegs bs
      let a : Packed := { cont := fieldWord bs 0, regs := r, task := task, sl := (r.slimit - vget 0 r.g 15).setWidth 24,
                          src := core, srcCtx := 0, srcGen := 0, stamp := task.enq }
      modCore core fun k => { k with arrivals := k.arrivals ++ [a] }
    | 4 =>
      let d : DequeRec := {
        entry := fieldWord bs 0, arg0 := fieldWord bs 8, arg1 := fieldWord bs 16, join := fieldWord bs 24, gtid := gtid,
        domain := BitVec.ofNat 3 (field bs 40 8), stamp := BitVec.ofNat 48 (field bs 48 8), launch := task.launch,
        root0 := root }
      modCore core fun k => { k with deque := k.deque ++ [d] }
    | _ => pure ()

/-- Every record returns, stopped engine jobs continue, and the partition runs again. -/
def returnAll (part : Nat) : M Unit := do
  let s ← getS
  match s.part? part with
  | none => pure ()
  | some p =>
    match p.preempt with
    | none => pure ()
    | some q =>
      for i in List.range q.records do
        let bs := saveRecord s p i
        match physIn p (recCore bs) with
        | some core => returnRecord core bs q
        | none => pure ()
      modPart part fun p => { p with preempt := none }
      if p.eclipse.isNone then continueJobs part true

/-- Begin a pre-emption (R336). -/
def beginPreempt (part : Nat) : M Unit := do
  let t ← now
  modPart part fun p => { p with preempt := some { stage := .grace, clk := t } }
  stopJobs part 4

end Sys2Proof.Machine
end

