-- ==== Sys2Proof/Machine/HostQ.lean ====
section
/-! DEFINITION. Work queues and doorbells (R344, R347), launch entries and their completion records (R345, R348, R350),
MSI-X and the mailbox registers (R353, R355), peer links (R358, R359). -/

namespace Sys2Proof.Machine

/-! ### Doorbells (R347) -/

/-- Indices of a queue run free, modulo 2^32. -/
def ringSize (q : WorkQueue) : Nat := 2 ^ q.log2n

/-- A doorbell on a queue: TAIL and CHEAD, or EN cleared when either leaves the ring's reach. -/
def ringDoorbell (q : Nat) (value : Word) : M Unit := do
  let w := (← getS).queue q
  if w.en then
    let tail : BitVec 32 := value.setWidth 32
    let chead : BitVec 32 := (value >>> 32).setWidth 32
    if (tail - w.head).toNat > ringSize w || (w.ctail - chead).toNat > ringSize w then
      modQueue q fun w => { w with en := false }
      deviceEvent (BitVec.ofNat 64 (8191 * 2 ^ 16)) (BitVec.ofNat 64 (1 + q * 2 ^ 16))
    else modQueue q fun w => { w with tail := tail, chead := chead }

/-- DOORBELL (R347): both ports reach every queue (R343). -/
def execDoorbell (port queue : Nat) (value : Word) (s : State) : Host.Outcome State Fault Refusal :=
  if 2 ≤ port || 8192 ≤ queue || s.mgmt.start != .running then act s [] else runM (ringDoorbell queue value) s

/-! ### Peer links (R358, R359) -/

/-- The partition a link serves, when its peer is admitted. -/
def linkPart (s : State) (link : Nat) : Option Nat :=
  match s.mgmt.flash.inUse.peers[link]?, s.mgmt.peerIds[link]? with
  | some (ids, p), some id => if ids.contains id then some p else none
  | _, _ => none

/-- Peer traffic is dropped and counted. -/
def peerDrop : M Unit := modMgmt fun m => { m with peerDropped := m.peerDropped + 1 }

/-- PEER_DOORBELL (R359): for a queue whose LOC names the link. -/
def execPeerDoorbell (link queue : Nat) (value : Word) (s : State) : Host.Outcome State Fault Refusal :=
  if s.mgmt.start != .running then act s []
  else runM (do
    if (linkPart s link).isSome && (s.queue queue).loc == link + 2 then ringDoorbell queue value else peerDrop) s

/-- Tell the supervisor of a peer write that was dropped: a kind-7 record (R359), at the first cluster of the partition
that has a pager area. -/
def peerNotice (p : Partition) (ia : Nat) : M Unit := do
  let s ← getS
  match p.map.find? fun k => (s.pager k).isSome with
  | some k => postOrWait k { q := recWord 0 true 0 7 0x02, w0 := 0, w1 := 0, w2 := BitVec.ofNat 64 ia }
  | none => pure ()

/-- PEER_WRITE (R358, R359): bytes at an intermediate address of the link's partition, page by page; the page must be
present, and writable (R48). -/
def execPeerWrite (link : Nat) (ia : BitVec 48) (data : List Byte) (s : State) : Host.Outcome State Fault Refusal :=
  if s.mgmt.start != .running then act s []
  else match linkPart s link with
    | none => runM peerDrop s
    | some part =>
      match s.part? part with
      | none => runM peerDrop s
      | some p =>
        runM (do
          let first := 65536 - ia.toNat % 65536
          let parts := (ia.toNat, data.take first) ::
            (List.range ((data.length - first + 65535) / 65536)).map fun i =>
              (ia.toNat + first + 65536 * i, (data.drop (first + 65536 * i)).take 65536)
          for x in parts.filter fun x => !x.2.isEmpty do
            match ← stage2 (p.map.headD 0) part x.1 with
            | some y =>
              if leafSt y.v == 2 && y.v.getLsbD 59 then pokes (farKey y.pa) x.2 else peerNotice p x.1
            | none => peerNotice p x.1) s

/-! ### Completion records (R350) -/

/-- Write the next completion record of a queue. -/
def writeCompletion (q : Nat) (tag : BitVec 16) (status roots : Nat) : M Unit := do
  let s ← getS
  let w := s.queue q
  let n := w.ctail.toNat
  let phase := n / ringSize w % 2 == 0
  let w0 := tag.toNat + status * 2 ^ 16 + roots % 2 ^ 32 * 2 ^ 24 + (if phase then 2 ^ 63 else 0)
  pokes (busKey w.loc (w.cring.toNat + 16 * (n % ringSize w))) (bytesOf 8 w0 ++ bytesOf 8 s.clk.toNat)
  modQueue q fun w => { w with ctail := w.ctail + 1 }
  if w.ie && w.loc < 2 then signal w.loc (2 + q % 62)

/-! ### Launch entries (R345, R348) -/

/-- Bytes of the entry at HEAD. -/
def entryBytes (s : State) (w : WorkQueue) : List Byte :=
  Mem.read s.mem (busKey w.loc (w.ring.toNat + 64 * (w.head.toNat % ringSize w))) 64

/-- The entry breaks Table 2, names another partition, or carries too low a class (R348). -/
def entryBad (w : WorkQueue) (b : List Byte) : Bool :=
  let x := field b 16 8
  let d := field b 24 8
  let partw := fieldWord b 48
  x % 2 ^ 32 == 0 || bits x 39 34 != 0 || bits x 47 46 != 0 || bits d 6 4 > 4 || d.testBit 3 || bits d 15 7 != 0 ||
    field b 56 8 != 0 || (partw != 0 && !partwOk partw) || bits x 45 40 != w.part || bits x 33 32 < w.qclass

/-- Launches of a partition's class in flight. -/
def inFlight (s : State) (part cls : Nat) : Nat :=
  (s.launches.filter fun x => x.2.part == part && x.2.cls == cls && !x.2.done).length

def quota (p : Partition) (cls : Nat) : Nat := if cls == 0 then p.q0 else if cls == 1 then p.q1 else p.q2

/-- The partition has a live task. -/
def liveTask (s : State) (part : Nat) : Bool := s.launches.any fun x => x.2.part == part && 0 < x.2.live

/-- The entry is deferred (R348, R364). -/
def entryDeferred (s : State) (p : Partition) (part cls : Nat) (partw : Word) : Bool :=
  p.preempt.isSome || (cls < 3 && inFlight s part cls ≥ quota p cls) || (cls == 3 && !s.mgmt.hot95.isEmpty) ||
    (partw != 0 && liveTask s part && (coresOf p).any fun k => (s.core k).regs.partw != partw)

/-- LAUNCH_ENTRY (R347, R348): the entry at HEAD is admitted, deferred or refused. -/
def execLaunchEntry (queue : Nat) (s : State) : Host.Outcome State Fault Refusal :=
  let w := s.queue queue
  let room := (w.ctail + BitVec.ofNat 32 w.taken - w.chead).toNat < ringSize w
  if !(w.en && w.head != w.tail && room && s.mgmt.start == .running) then act s []
  else runM (do
    let b := entryBytes s w
    let x := field b 16 8
    let d := field b 24 8
    let tag := BitVec.ofNat 16 (x / 2 ^ 48)
    let cls := bits x 33 32
    let partw := fieldWord b 48
    modQueue queue fun w => { w with head := w.head + 1 }
    if entryBad w b then writeCompletion queue tag 2 0
    else match s.part? w.part with
      | none => writeCompletion queue tag 4 0
      | some p =>
        if entryDeferred s p w.part cls partw then writeCompletion queue tag 1 0
        else
          if partw != 0 then
            for k in coresOf p do modCore k fun c => { c with regs := { c.regs with partw := partw } }
          eff (.newLaunch {
            queue := queue, part := w.part, cls := cls, tag := tag, entry := fieldWord b 0, arg := fieldWord b 8
            n := x % 2 ^ 32, fmode := BitVec.ofNat 3 d, stealdom := BitVec.ofNat 3 (d / 16)
            wspin := BitVec.ofNat 16 (d / 2 ^ 16), wlimit := BitVec.ofNat 32 (d / 2 ^ 32), tvec := fieldWord b 32
            tsb := fieldWord b 40 })
          modQueue queue fun w => { w with taken := w.taken + 1 }) s

/-- LAUNCH_COMPLETION (R350): every root has been placed and no task of the launch lives. -/
def execLaunchCompletion (launch : Nat) (s : State) : Host.Outcome State Fault Refusal :=
  match s.launch? launch with
  | none => act s []
  | some l =>
    if l.done || l.placed < l.n || 0 < l.live then act s []
    else runM (do
      modLaunch launch fun l => { l with done := true }
      modQueue l.queue fun w => { w with taken := w.taken - 1 }
      writeCompletion l.queue l.tag (if l.terminated then 3 else 0) l.placed) s

/-! ### Registers of the mailbox (R353, R355) -/

/-- MSIX_UNMASK (R355): a held message is sent. -/
def execMsixUnmask (port vec : Nat) (s : State) : Host.Outcome State Fault Refusal :=
  if 2 ≤ port || 64 ≤ vec then act s []
  else runM (modPort port fun p =>
    let bit := BitVec.ofNat 64 (2 ^ vec)
    { p with masked := p.masked &&& ~~~bit, pending := p.pending &&& ~~~bit
             sent := if p.pending.getLsbD vec then p.sent ++ [vec] else p.sent }) s

/-- STAT (Table 6). -/
def statWord (p : Port) : Word :=
  BitVec.ofNat 64 ((if p.busy then 2 ^ 63 else 0) + (if p.done then 2 ^ 62 else 0) + p.count.toNat * 2 ^ 8 + p.status.toNat)

/-- What a read of BAR2 returns at an offset of a word (Table 6): OP the last operation written, the reserved offsets 0. -/
def Port.readAt (p : Port) (off : Nat) : Word :=
  if off == 0 then p.op.setWidth 64
  else if off == 8 then statWord p
  else if off == 0x10 then p.event
  else if 0x40 ≤ off && off < 0x80 then p.param.getD ((off - 0x40) / 8) 0
  else 0

/-- STAT_READ (R353): reading STAT clears DONE. -/
def execStatRead (port : Nat) (s : State) : Host.Outcome State Fault Refusal :=
  if 2 ≤ port then act s [] else runM (modPort port fun p => { p with read := p.readAt 8, done := false }) s

/-- EVENT_READ (R353): a read returns and clears the events. -/
def execEventRead (port : Nat) (s : State) : Host.Outcome State Fault Refusal :=
  if 2 ≤ port then act s [] else runM (modPort port fun p => { p with read := p.readAt 0x10, event := 0 }) s

/-- MAILBOX_WRITE (R353): a write of OP while not BUSY starts a request with the block at PARAM; PARAM is plain; a write
anywhere else, or of OP while BUSY, is ignored. -/
def execMailboxWrite (port off : Nat) (value : Word) (s : State) : Host.Outcome State Fault Refusal :=
  if 2 ≤ port then act s []
  else
    let p := vget {} s.mgmt.ports port
    if off == 0 then
      if p.busy then act s []
      else runM (do
        modPort port fun p => { p with op := value.setWidth 8, busy := true }
        modMgmt fun m => { m with
          reqs := m.reqs ++ [{ path := .mailbox port, op := value.setWidth 8, param := p.param }] }) s
    else if 0x40 ≤ off && off < 0x80 && off % 8 == 0 then
      runM (modPort port fun p => { p with param := p.param.set ((off - 0x40) / 8) value }) s
    else act s []

end Sys2Proof.Machine
end

