-- ==== Sys2Proof/Machine/Flags.lean ====
section
/-! DEFINITION. The predicates of the integer compares (R107, R112): this machine has no flags register, and a compare
emits its predicate as a token. Floating-point compares are in Float.lean, lane compares in Vector.lean. -/

namespace Sys2Proof.Machine

inductive Cmp where
  | eq | ne | lt | le | ltu | leu
  deriving DecidableEq, Repr

/-- The predicate of a compare at width n (Tables 4 and 6). -/
def Cmp.holds (c : Cmp) (n : Nat) (a b : Word) : Bool :=
  match c with
  | .eq => zext a n == zext b n
  | .ne => zext a n != zext b n
  | .lt => sext a n < sext b n
  | .le => sext a n ≤ sext b n
  | .ltu => zext a n < zext b n
  | .leu => zext a n ≤ zext b n

/-- A compare of slots a and b (R112). -/
def cmpForm (c : Cmp) (f : FmtA) (s : State) : Host.Outcome State Fault Refusal :=
  pureA f [.a, .b] 1 (fun i _ => predTok (c.holds (wbits f.wd) (i.tok .a).word (i.tok .b).word)) s

/-- A compare of slot a and the immediate (R107). -/
def cmpImm (c : Cmp) (f : FmtA) (s : State) : Host.Outcome State Fault Refusal :=
  pureA f [.a] 1 (fun i _ => predTok (c.holds (wbits f.wd) (i.tok .a).word (toWord (zImm f.z)))) s

end Sys2Proof.Machine
end

