-- ==== Sys2Proof/Machine/Int.lean ====
section
/-! DEFINITION. The integer, logic and predicate forms: INTA, INTI, LOGIC and PRED (R107 to R115). -/

namespace Sys2Proof.Machine

/-- The second operand of INTI forms as a word (R107). -/
def immWord (f : FmtA) : Word := toWord (zImm f.z)

/-- The shift count amt := b[k−1:0] (R107). -/
def amt (wd : Width) (b : Word) : Nat := b.toNat % 2 ^ wlog wd

/-- R107 with a signed result: `v` gets the width and both operands. -/
def intS (f : FmtA) (v : Nat → Word → Word → Int) (s : State) : Host.Outcome State Fault Refusal :=
  pureA f [.a, .b] 1 (fun i _ => .scalar (extS (v (wbits f.wd) (i.tok .a).word (i.tok .b).word) (wbits f.wd))) s

/-- R107 with an unsigned result. -/
def intU (f : FmtA) (v : Nat → Word → Word → Int) (s : State) : Host.Outcome State Fault Refusal :=
  pureA f [.a, .b] 1 (fun i _ => .scalar (extU (v (wbits f.wd) (i.tok .a).word (i.tok .b).word) (wbits f.wd))) s

/-- One-operand forms, and INTI forms whose b is the immediate. -/
def intS1 (f : FmtA) (b : Word) (v : Nat → Word → Word → Int) (s : State) : Host.Outcome State Fault Refusal :=
  pureA f [.a] 1 (fun i _ => .scalar (extS (v (wbits f.wd) (i.tok .a).word b) (wbits f.wd))) s

def intU1 (f : FmtA) (b : Word) (v : Nat → Word → Word → Int) (s : State) : Host.Outcome State Fault Refusal :=
  pureA f [.a] 1 (fun i _ => .scalar (extU (v (wbits f.wd) (i.tok .a).word b) (wbits f.wd))) s

/-- DIV of R108, exact. -/
def divS (n : Nat) (a b : Word) : Int :=
  if sext b n = 0 then -1
  else if sext a n = -(2 ^ (n - 1)) ∧ sext b n = -1 then -(2 ^ (n - 1))
  else (sext a n).tdiv (sext b n)

/-- REM of R108. -/
def remS (n : Nat) (a b : Word) : Int :=
  if sext b n = 0 then sext a n
  else if sext a n = -(2 ^ (n - 1)) ∧ sext b n = -1 then 0
  else sext a n - sext b n * divS n a b

def divU (n : Nat) (a b : Word) : Int := if zext b n = 0 then 2 ^ n - 1 else (zext a n / zext b n : Nat)

def remU (n : Nat) (a b : Word) : Int := if zext b n = 0 then (zext a n : Int) else (zext a n % zext b n : Nat)

/-- Leading zeros of a as n bits (R110). -/
def clzNat : Nat → Nat → Nat
  | 0, _ => 0
  | n + 1, a => if a.testBit n then 0 else 1 + clzNat n a

/-- Trailing zeros, counted up to n (R110). -/
def ctzFrom : Nat → Nat → Nat
  | 0, _ => 0
  | n + 1, a => if a % 2 = 1 then 0 else 1 + ctzFrom n (a / 2)

def popNat : Nat → Nat → Nat
  | 0, _ => 0
  | n + 1, a => a % 2 + popNat n (a / 2)

/-- BFX of R111. -/
def bfx (n : Nat) (a b : Word) : Int :=
  let pos := wbitsOf b 7 0
  let len := wbitsOf b 15 8
  if pos ≥ n ∨ len = 0 then 0 else (zext a n / 2 ^ pos % 2 ^ min len (n - pos) : Nat)

/-- BFI of R111. -/
def bfi (n : Nat) (a b c : Word) : Int :=
  let pos := wbitsOf b 7 0
  let len := wbitsOf b 15 8
  if pos ≥ n ∨ len = 0 then (zext a n : Int)
  else
    let l := min len (n - pos)
    let x := zext a n
    (x - x / 2 ^ pos % 2 ^ l * 2 ^ pos + c.toNat % 2 ^ l * 2 ^ pos : Nat)

/-- ADD (R107). -/
def execAdd (f : FmtA) (s : State) : Host.Outcome State Fault Refusal := intS f (fun n a b => sext a n + sext b n) s

/-- SUB (R107). -/
def execSub (f : FmtA) (s : State) : Host.Outcome State Fault Refusal := intS f (fun n a b => sext a n - sext b n) s

/-- MUL (R107). -/
def execMul (f : FmtA) (s : State) : Host.Outcome State Fault Refusal := intS f (fun n a b => sext a n * sext b n) s

/-- MULH (R107). -/
def execMulh (f : FmtA) (s : State) : Host.Outcome State Fault Refusal := intS f (fun n a b => (sext a n * sext b n).fdiv (2 ^ n)) s

/-- MULHU (R107). -/
def execMulhu (f : FmtA) (s : State) : Host.Outcome State Fault Refusal := intU f (fun n a b => (zext a n * zext b n / 2 ^ n : Nat)) s

/-- DIV (R108). -/
def execDiv (f : FmtA) (s : State) : Host.Outcome State Fault Refusal := intS f divS s

/-- DIVU (R108). -/
def execDivu (f : FmtA) (s : State) : Host.Outcome State Fault Refusal := intU f divU s

/-- REM (R108). -/
def execRem (f : FmtA) (s : State) : Host.Outcome State Fault Refusal := intS f remS s

/-- REMU (R108). -/
def execRemu (f : FmtA) (s : State) : Host.Outcome State Fault Refusal := intU f remU s

/-- MIN (R107). -/
def execMin (f : FmtA) (s : State) : Host.Outcome State Fault Refusal := intS f (fun n a b => min (sext a n) (sext b n)) s

/-- MAX (R107). -/
def execMax (f : FmtA) (s : State) : Host.Outcome State Fault Refusal := intS f (fun n a b => max (sext a n) (sext b n)) s

/-- MINU (R107). -/
def execMinu (f : FmtA) (s : State) : Host.Outcome State Fault Refusal := intU f (fun n a b => (min (zext a n) (zext b n) : Nat)) s

/-- MAXU (R107). -/
def execMaxu (f : FmtA) (s : State) : Host.Outcome State Fault Refusal := intU f (fun n a b => (max (zext a n) (zext b n) : Nat)) s

/-- NEG (R107). -/
def execNeg (f : FmtA) (s : State) : Host.Outcome State Fault Refusal := intS1 f 0 (fun n a _ => -sext a n) s

/-- ABS (R107). -/
def execAbs (f : FmtA) (s : State) : Host.Outcome State Fault Refusal := intS1 f 0 (fun n a _ => (sext a n).natAbs) s

/-- ADDI (R107). -/
def execAddi (f : FmtA) (s : State) : Host.Outcome State Fault Refusal := intS1 f (immWord f) (fun n a b => sext a n + sext b n) s

/-- MULI (R107). -/
def execMuli (f : FmtA) (s : State) : Host.Outcome State Fault Refusal := intS1 f (immWord f) (fun n a b => sext a n * sext b n) s

/-- ANDI (R107). -/
def execAndi (f : FmtA) (s : State) : Host.Outcome State Fault Refusal := intU1 f (immWord f) (fun n a b => (zext a n &&& zext b n : Nat)) s

/-- ORI (R107). -/
def execOri (f : FmtA) (s : State) : Host.Outcome State Fault Refusal := intU1 f (immWord f) (fun n a b => (zext a n ||| zext b n : Nat)) s

/-- XORI (R107). -/
def execXori (f : FmtA) (s : State) : Host.Outcome State Fault Refusal := intU1 f (immWord f) (fun n a b => (zext a n ^^^ zext b n : Nat)) s

/-- SHLI (R107). -/
def execShli (f : FmtA) (s : State) : Host.Outcome State Fault Refusal := intU1 f (immWord f) (fun n a b => (zext a n * 2 ^ amt f.wd b : Nat)) s

/-- SHRI (R107). -/
def execShri (f : FmtA) (s : State) : Host.Outcome State Fault Refusal := intU1 f (immWord f) (fun n a b => (zext a n / 2 ^ amt f.wd b : Nat)) s

/-- SARI (R107). -/
def execSari (f : FmtA) (s : State) : Host.Outcome State Fault Refusal := intS1 f (immWord f) (fun n a b => (sext a n).fdiv (2 ^ amt f.wd b)) s

/-- CEQI (R107). -/
def execCeqi (f : FmtA) (s : State) : Host.Outcome State Fault Refusal := cmpImm .eq f s

/-- CNEI (R107). -/
def execCnei (f : FmtA) (s : State) : Host.Outcome State Fault Refusal := cmpImm .ne f s

/-- CLTI (R107). -/
def execClti (f : FmtA) (s : State) : Host.Outcome State Fault Refusal := cmpImm .lt f s

/-- CLEI (R107). -/
def execClei (f : FmtA) (s : State) : Host.Outcome State Fault Refusal := cmpImm .le f s

/-- CLTUI (R107). -/
def execCltui (f : FmtA) (s : State) : Host.Outcome State Fault Refusal := cmpImm .ltu f s

/-- CLEUI (R107). -/
def execCleui (f : FmtA) (s : State) : Host.Outcome State Fault Refusal := cmpImm .leu f s

/-- LEA (R109). -/
def execLea (f : FmtA) (s : State) : Host.Outcome State Fault Refusal := intU f (fun _ a b => (a.toNat : Int) + b.toNat * 2 ^ (f.xf.toNat % 4) + zImm f.z) s

/-- AND (R110). -/
def execAnd (f : FmtA) (s : State) : Host.Outcome State Fault Refusal := intU f (fun n a b => (zext a n &&& zext b n : Nat)) s

/-- OR (R110). -/
def execOr (f : FmtA) (s : State) : Host.Outcome State Fault Refusal := intU f (fun n a b => (zext a n ||| zext b n : Nat)) s

/-- XOR (R110). -/
def execXor (f : FmtA) (s : State) : Host.Outcome State Fault Refusal := intU f (fun n a b => (zext a n ^^^ zext b n : Nat)) s

/-- NOT (R110). -/
def execNot (f : FmtA) (s : State) : Host.Outcome State Fault Refusal := intU1 f 0 (fun n a _ => 2 ^ n - 1 - (zext a n : Int)) s

/-- SHL (R110). -/
def execShl (f : FmtA) (s : State) : Host.Outcome State Fault Refusal := intU f (fun n a b => (zext a n * 2 ^ amt f.wd b : Nat)) s

/-- SHR (R110). -/
def execShr (f : FmtA) (s : State) : Host.Outcome State Fault Refusal := intU f (fun n a b => (zext a n / 2 ^ amt f.wd b : Nat)) s

/-- SAR (R110). -/
def execSar (f : FmtA) (s : State) : Host.Outcome State Fault Refusal := intS f (fun n a b => (sext a n).fdiv (2 ^ amt f.wd b)) s

/-- ROT (R110). -/
def execRot (f : FmtA) (s : State) : Host.Outcome State Fault Refusal := intU f (fun n a b => (rotl (zext a n) (amt f.wd b) n : Nat)) s

/-- CLZ (R110). -/
def execClz (f : FmtA) (s : State) : Host.Outcome State Fault Refusal := intU1 f 0 (fun n a _ => (clzNat n (zext a n) : Nat)) s

/-- CTZ (R110). -/
def execCtz (f : FmtA) (s : State) : Host.Outcome State Fault Refusal := intU1 f 0 (fun n a _ => (ctzFrom n (zext a n) : Nat)) s

/-- POPC (R110). -/
def execPopc (f : FmtA) (s : State) : Host.Outcome State Fault Refusal := intU1 f 0 (fun n a _ => (popNat n (zext a n) : Nat)) s

/-- BFX (R111). -/
def execBfx (f : FmtA) (s : State) : Host.Outcome State Fault Refusal := intU f bfx s

/-- BFI (R111). -/
def execBfi (f : FmtA) (s : State) : Host.Outcome State Fault Refusal :=
  pureA f [.a, .b, .c] 1 (fun i _ =>
    .scalar (extU (bfi (wbits f.wd) (i.tok .a).word (i.tok .b).word (i.tok .c).word) (wbits f.wd))) s

/-- SEXT (R110). -/
def execSext (f : FmtA) (s : State) : Host.Outcome State Fault Refusal := intS1 f 0 (fun n a _ => sext a n) s

/-- ZEXT (R110). -/
def execZext (f : FmtA) (s : State) : Host.Outcome State Fault Refusal := intU1 f 0 (fun n a _ => (zext a n : Nat)) s

/-- CEQ (R112). -/
def execCeq (f : FmtA) (s : State) : Host.Outcome State Fault Refusal := cmpForm .eq f s

/-- CNE (R112). -/
def execCne (f : FmtA) (s : State) : Host.Outcome State Fault Refusal := cmpForm .ne f s

/-- CLT (R112). -/
def execClt (f : FmtA) (s : State) : Host.Outcome State Fault Refusal := cmpForm .lt f s

/-- CLE (R112). -/
def execCle (f : FmtA) (s : State) : Host.Outcome State Fault Refusal := cmpForm .le f s

/-- CLTU (R112). -/
def execCltu (f : FmtA) (s : State) : Host.Outcome State Fault Refusal := cmpForm .ltu f s

/-- CLEU (R112). -/
def execCleu (f : FmtA) (s : State) : Host.Outcome State Fault Refusal := cmpForm .leu f s

/-- PAND (R112). -/
def execPand (f : FmtA) (s : State) : Host.Outcome State Fault Refusal := pureA f [.a, .b] 1 (fun i _ => predTok ((i.tok .a).pred && (i.tok .b).pred)) s

/-- POR (R112). -/
def execPor (f : FmtA) (s : State) : Host.Outcome State Fault Refusal := pureA f [.a, .b] 1 (fun i _ => predTok ((i.tok .a).pred || (i.tok .b).pred)) s

/-- PXOR (R112). -/
def execPxor (f : FmtA) (s : State) : Host.Outcome State Fault Refusal := pureA f [.a, .b] 1 (fun i _ => predTok ((i.tok .a).pred ^^ (i.tok .b).pred)) s

/-- PNOT (R112). -/
def execPnot (f : FmtA) (s : State) : Host.Outcome State Fault Refusal := pureA f [.a] 1 (fun i _ => predTok !(i.tok .a).pred) s

/-- A word with one bit replaced (R113). -/
def setBit (w : Word) (k : Nat) (b : Bool) : Word := if b then w ||| (1#64 <<< k) else w &&& ~~~(1#64 <<< k)

/-- PPACK (R113). -/
def execPpack (f : FmtA) (s : State) : Host.Outcome State Fault Refusal := pureA f [.a, .b] 1 (fun i _ => .scalar (setBit (i.tok .a).word f.xf.toNat (i.tok .b).pred)) s

/-- PBIT (R113). -/
def execPbit (f : FmtA) (s : State) : Host.Outcome State Fault Refusal := pureA f [.a] 1 (fun i _ => predTok ((i.tok .a).word.getLsbD f.xf.toNat)) s

/-- SEL (R114). -/
def execSel (f : FmtA) (s : State) : Host.Outcome State Fault Refusal :=
  pureA f [.a, .b, .c] 1 (fun i _ =>
    .scalar (extU (zext (i.tok (if (i.tok .a).pred then .b else .c)).word (wbits f.wd) : Nat) (wbits f.wd))) s

/-- ISNULL (R115): its data slot may hold null. -/
def execIsnull (f : FmtA) (s : State) : Host.Outcome State Fault Refusal :=
  pureForm f.gm (targetList f.t) [.a] 1 true (fun i _ => predTok (i.tok .a).isNull) s

end Sys2Proof.Machine
end

