-- ==== Sys2Proof/Machine/Scanner.lean ====
section
/-! DEFINITION. The scanner (R45 to R47, Table 10 of R46), the request ring (R224), and the two requests that mark a page
executable and withdraw the mark (R225). -/

namespace Sys2Proof.Machine

/-! ### One word (verdicts 0x03 to 0x06) -/

/-- Bits of a word as a number. -/
def Code.field (w : Code) (hi lo : Nat) : Nat := bits w.toNat hi lo

/-- A form of the MEM group (R26). -/
def FormInfo.isMem (f : FormInfo) : Bool := f.op == 0x20

/-- RSVBITS (verdict 0x04) of an instruction word (R25 to R28, R31). -/
def rsvBits (w : Code) (f : FormInfo) : Bool :=
  let hn := Code.field w 80 78
  let rx := w.getLsbD 81
  let lw := Code.field w 77 72
  let z := w.z
  let hints := if FormInfo.isMem f then hn / 2 ≥ 2 || (rx && hn / 2 == 1)
    else if f.mem then hn != 0 else hn > 1
  let fields := match f.fmt with
    | .a => !(f.wds.contains (lw / 16) && f.xfs.contains (lw % 16) && f.z.ok z)
    | .k => lw != 0
    | .g => lw != 0 || Code.field w 23 5 != 0 || (w.getLsbD 4 && w.getLsbD 3)
    | .b => lw != 0 || Code.field w 47 27 != 0 || !f.z.ok z
    | .m | .e | .s => !f.z.ok z
  w.gm == .reserved || hints || (rx && !f.rx) || fields

/-- The raw target fields a word has (R31). -/
def rawTargets (w : Code) (f : FormInfo) : List Nat :=
  let n := if f.fmt == .k || f.fmt == .b then 2 else 4
  (List.range n).map fun i => Code.field w (71 - 12 * i) (60 - 12 * i)

/-- The form emits a result. -/
def hasResult (f : FormInfo) : Bool := f.fmt == .g || f.res.isSome

/-- TARGET (verdict 0x05) of the word at an index of a block of n instructions (R29, R30). -/
def targetBad (w : Code) (f : FormInfo) (idx n : Nat) : Bool :=
  (rawTargets w f).any fun t =>
    if !hasResult f then t != 0
    else if !t.testBit 11 then t != 0
    else if !t.testBit 10 then bits t 7 6 != 0 || !(idx < t % 64 && t % 64 < n)
    else bits t 9 5 != 0 || (t.testBit 4 && t.testBit 3)

/-- A delivery to a slot of a form (R30): used by the form, and of its kind (R36). -/
def slotTakes (c : Code) (f : FormInfo) (s : Slot) (vec : Bool) : Bool :=
  match s with
  | .a => f.a == some vec
  | .b => f.b == some vec
  | .c => f.c == some vec
  | .p => c.gm != .none && !vec

/-- SLOT (verdict 0x06), charged to the producer (R46). -/
def slotBad (ws : List Code) (w : Code) (f : FormInfo) (idx : Nat) : Bool :=
  let vec := w.resVec f
  (w.outs f).any fun t => match t with
    | .greg _ => vec
    | .vreg _ => !vec
    | .slot s k =>
      if !(idx < k.toNat && k.toNat < ws.length) then false
      else match ws[k.toNat]? with
        | some c => (match c.info with
          | some cf => !slotTakes c cf s vec
          | none => false)
        | none => false

/-- Lowest verdict of an instruction word taken alone. -/
def wordVerdict (ws : List Code) (w : Code) (idx : Nat) : Nat :=
  match w.info with
  | none => 0x03
  | some f =>
    if rsvBits w f then 0x04
    else if targetBad w f idx ws.length then 0x05
    else if slotBad ws w f idx then 0x06
    else 0

/-! ### The block (verdicts 0x07 to 0x0D, charged to the header) -/

/-- Deliveries to slots: consumer, slot. A target that names no later instruction of the block delivers to none, although
blockSig counts it; a word of no opcode neither delivers nor takes. No rule says how verdicts 0x07 to 0x0D treat either,
whose own verdicts are charged to their words (DESIGN CHOICE, log 52). -/
def slotDeliveries (ws : List Code) : List (Nat × Slot) :=
  ws.zipIdx.flatMap fun x => match x.1.info with
    | some f => (x.1.outs f).filterMap fun t => match t with
      | .slot s k => if x.2 < k.toNat && k.toNat < ws.length then some (k.toNat, s) else none
      | _ => none
    | none => []

/-- DUP (R30). -/
def dupBad (ws : List Code) : Bool :=
  !(slotDeliveries ws).Nodup || ws.any fun w => match w.info with
    | some f => !(w.outs f).Nodup
    | none => false

/-- MISSING (R30): a used slot without a producer. -/
def missingBad (ws : List Code) : Bool :=
  let d := slotDeliveries ws
  ws.zipIdx.any fun x => match x.1.info with
    | some f => (formSlots f ++ (if x.1.gm == .none then [] else [Slot.p])).any fun s => !d.contains (x.2, s)
    | none => false

/-- LSIDs of the memory-class forms, LW as it stands. -/
def lsids (ws : List Code) : List Nat :=
  ws.filterMap fun w => match w.info with
    | some f => if f.mem then some w.lw.toNat else none
    | none => none

/-- LSID (R32). -/
def lsidBad (ws : List Code) : Bool :=
  !(lsids ws).Nodup || (lsids ws).any (31 < ·) || ws.any fun w => match w.info with
    | some f => f.fmt == .s && w.lw != 63
    | none => false

/-- The numbers a mask of n bits holds. -/
def setMask (l : List Nat) (n : Nat) : Nat := (List.range n).foldl (fun a i => if l.contains i then a + 2 ^ i else a) 0

/-- MASK (R37, R38). -/
def maskBad (h : Code) (ws : List Code) : Bool :=
  let stores := ws.filterMap fun w => match w.info with
    | some f => if f.store then some w.lw.toNat else none
    | none => none
  let outs := ws.flatMap fun w => match w.info with
    | some f => w.outs f
    | none => []
  let g := outs.filterMap fun t => match t with
    | .greg n => some n.toNat
    | _ => none
  let v := outs.filterMap fun t => match t with
    | .vreg n => some n.toNat
    | _ => none
  h.smask.toNat != setMask stores 32 || h.gwmask.toNat != setMask g 16 || h.vwmask.toNat != setMask v 8

/-- A non-trapping form (R39). -/
def nonTrapping (f : FormInfo) : Bool :=
  (1 ≤ f.op && f.op ≤ 4) || (f.op == 5 && [0, 1, 2, 3, 4, 7, 8, 9].contains f.sub) || (f.op == 7 && f.sub ≤ 4)

/-- Indexes of the irrevocable instructions. -/
def irrevocables (ws : List Code) : List Nat :=
  ws.zipIdx.filterMap fun x => match x.1.info with
    | some f => if f.irr then some x.2 else none
    | none => none

/-- SYNC (R39, R189). A target past the end of the block reaches no instruction: it is charged to its word (0x05). -/
def syncBad (h : Code) (ws : List Code) : Bool :=
  match h.isSync, irrevocables ws with
  | false, l => !l.isEmpty
  | true, [k] =>
    let after := (reachFrom (ws.map fun w => { word := w }) 0 [k]).filter (· < ws.length)
    let at_ := fun (i : Nat) => (ws[i]?).bind fun w => w.info.map fun f => (w, f)
    let lsidRule := match at_ k with
      | some (w, f) => f.mem && ws.zipIdx.any fun x => match x.1.info with
        | some g => g.mem && x.2 != k && w.lw.toNat ≤ x.1.lw.toNat
        | none => false
      | none => false
    let deps := after.any fun i => i != k && (match at_ i with
      | some (_, f) => f.mem || !nonTrapping f
      | none => true)
    let g14 := after.any fun i => match at_ i with
      | some (w, f) => (w.outs f).contains (.greg 14)
      | none => false
    lsidRule || deps || g14
  | true, _ => true

/-- Exit numbers of the exit-class forms (R38). -/
def exitNumbers (ws : List Code) : List Nat :=
  ws.filterMap fun w => match w.info with
    | some f => if f.exit then some (if f.fmt == .b then Code.field w 26 24 else 0) else none
    | none => none

/-- EXIT (R37, R38). -/
def exitBad (h : Code) (ws : List Code) : Bool :=
  match exitNumbers ws with
  | [] => true
  | l => l.foldl max 0 != h.nexit.toNat

/-- The signature of a block (R40). -/
def blockSig (h : Code) (ws : List Code) : BitVec 16 :=
  let skip := if h.isSync then
      match irrevocables ws with
      | k :: _ => reachFrom (ws.map fun w => { word := w }) 0 [k]
      | [] => []
    else []
  ws.zipIdx.foldl (fun acc x => match x.1.info with
    | some f => if skip.contains x.2 then acc
        else (x.1.outs f).foldl (fun a t => a + sigHash (targetItem t x.2)) acc
    | none => acc) 0

/-- Lowest verdict of a header word. -/
def headerVerdict (h : Code) (ws : List Code) : Nat :=
  if h.getLsbD 81 || Code.field h 19 16 != 0 || h.getLsbD 24 then 0x04
  else if dupBad ws then 0x07
  else if missingBad ws then 0x08
  else if lsidBad ws then 0x09
  else if maskBad h ws then 0x0A
  else if syncBad h ws then 0x0B
  else if exitBad h ws then 0x0C
  else if h.sig != 0 && h.sig != blockSig h ws then 0x0D
  else 0

/-- Verdict of a block and the index of the word it is charged to, the header being word 0. -/
def blockVerdict (h : Code) (ws : List Code) : Nat × Nat :=
  let hv := headerVerdict h ws
  if hv != 0 then (hv, 0)
  else match ws.zipIdx.find? fun x => wordVerdict ws x.1 x.2 != 0 with
    | some x => (wordVerdict ws x.1 x.2, x.2 + 1)
    | none => (0, 0)

/-! ### The page (R45) -/

/-- The walk over a page at a memory key from a position: verdict, reported offset, block starts. -/
def scanFrom (m : List Host.Cell) (key : Nat) : Nat → Nat → List Nat → Nat × Nat × List Nat
  | 0, _, starts => (0, 0, starts)
  | fuel + 1, pos, starts =>
    let zero := fun lo n => (Mem.read m (key + lo) n).all (· == 0)
    if pos + 12 > 65536 then (if zero pos (65536 - pos) then (0, 0, starts) else (0x01, pos, starts))
    else
      let h := codeAt m (key + pos)
      if h == 0 then
        match (List.range ((65536 - pos + 11) / 12)).find? fun i => !zero (pos + 12 * i) (min 12 (65536 - pos - 12 * i)) with
        | some i => (0x01, pos + 12 * i, starts)
        | none => (0, 0, starts)
      else if !h.isHeader then (0x01, pos, starts)
      else
        let n := h.len + 1
        if pos + 12 * (n + 1) > 65536 then (0x02, pos, starts)
        else
          let ws := (List.range n).map fun i => codeAt m (key + pos + 12 * (i + 1))
          let (v, w) := blockVerdict h ws
          if v != 0 then (v, pos + 12 * w, starts)
          else scanFrom m key fuel (pos + 12 * (n + 1)) (starts ++ [pos])

/-- The scanner's walk of a page. -/
def scanPage (m : List Host.Cell) (key : Nat) : Nat × Nat × List Nat := scanFrom m key 5462 0 []

/-- The verdict word of R47. -/
def verdictWord (code off : Nat) : Word := BitVec.ofNat 64 (off * 2 ^ 32 + code * 2 ^ 24)

/-- The block-start bitmap (R225): bit j for a block at offset 12·j. -/
def startBitmap (starts : List Nat) : List Byte :=
  (List.range 683).map fun i => (List.range 8).foldl (fun a b =>
    if starts.contains (12 * (8 * i + b)) then a ||| BitVec.ofNat 8 (2 ^ b) else a) 0

/-! ### The request ring (R224) -/

/-- Core and pool offset of the record the cluster's CTU takes next. -/
def ringAt (s : State) (cl : Nat) : Option (Nat × Nat) :=
  (s.pager cl).map fun p => (p.1, p.2 + 0xA00 + 32 * (s.cluster cl).ring.toNat)

/-- Word i of that record. -/
def ringWord (s : State) (cl i : Nat) : Word :=
  match ringAt s cl with
  | some (k, off) => Mem.read64 s.mem (poolKey k (off + 8 * i))
  | none => 0

/-- The operation of a request that stands in the ring: its w0 is FULL. -/
def ringOp (s : State) (cl : Nat) : Option Nat :=
  match ringAt s cl with
  | some (k, off) => if (s.syncOf (poolKey k off / 8)).getLsbD 0 then some (wbitsOf (ringWord s cl 0) 7 0) else none
  | none => none

/-- Answer the request: status in w2[63:56], then w3 with STS. The record is taken: its w0 becomes EMPTY and the next
record is the one to wait on (DEDUCED, log 17). The accesses hold the port, and the home check examines them; a w2 whose read
is uncorrectable is consumed, and gets no answer (R166, R340). -/
def ringAnswer (cl status : Nat) (w3 : Word) : M Unit := do
  match ringAt (← getS) cl with
  | none => pure ()
  | some (k, off) =>
    if ← deviceGood cl k (off + 16) 8 then
      let who ← unitAgent cl 0 0
      let w2 := fieldWord (← agentRead cl k (off + 16) 8 who) 0
      deviceWrite k (off + 16) (bytesOf 8 (w2.toNat % 2 ^ 56 + status * 2 ^ 56)) who
      setFull k (off / 8) false
      evalWaiters k (off / 8)
      syncWrite k (off + 24) w3 true
      holdPort k [(off, 8), (off + 24, 8)] 2
      homeWatch k off 8 false true who
      homeWatch k (off + 24) 8 false true who
      modCluster cl fun c => { c with ring := c.ring + 1 }

/-- The CTU reads the record of a request; whether it could (R166). -/
def ringRead (cl k off : Nat) : M Bool := do
  let good ← deviceGood cl k off 32
  let _ ← unitRead cl k off 32
  return good

/-! ### The two requests -/

/-- S1ROOT of an address space: from the ASID register of the lowest core of the partition that has the ASID, the cores of
the cluster first (DEDUCED, log 17). -/
def asidRoot (s : State) (cl part asid : Nat) : Option Nat :=
  let cores := ((cl :: ((s.part? part).getD {}).map)).flatMap fun k => (List.range 8).map fun i => 8 * k + i
  (cores.find? fun k => asidOf (s.core k).regs.asid == asid).map fun k => s1Of (s.core k).regs.asid

/-- What a request finds of its page: a status of Table 12, or the stage-2 leaf, the PA and IA of the page. -/
inductive PageAsk where
  | status (n : Nat)
  | leaf (at_ : Nat) (v : Word) (pa ia : Nat)
  deriving DecidableEq, Repr

/-- Look a page up for a request (R224). A w1 that is no FAR address is not mapped in stage 1: status 4; a page that is not
present and lies under a larger leaf is not present: status 1 (DESIGN CHOICE, log 56). -/
def askPage (cl part asid : Nat) (a : Word) : M PageAsk := do
  match classify a 1, asidRoot (← getS) cl part asid with
  | .far va, some root =>
    match ← walk cl part (BitVec.ofNat 12 asid) root (va / 65536 * 65536) with
    | .stage1 | .tableFail _ | .tablePoison _ => return .status 4
    | .stage2 => return .status 2
    | .critical _ =>
      postOrWait cl { q := recWord asid false 0 5 0x10, w0 := 0, w1 := 0, w2 := a }
      consume cl
      return .status 1
    | .ok e =>
      match ← stage2 cl part e.ia.toNat with
      | none => return .status 2
      | some x =>
        if leafSt x.v != 2 then return .status 1
        else if x.level != 4 then return .status 2
        else return .leaf x.at_ x.v (x.pa / 65536 * 65536) (e.ia.toNat / 65536 * 65536)
  | _, _ => return .status 4

/-- The leaf with X, W and XSLOT as a map request leaves them (R225). -/
def execLeaf (v : Word) (xslot : Nat) : Word :=
  BitVec.ofNat 64 (wbitsOf v 63 61 * 2 ^ 61 + 2 ^ 60 + wbitsOf v 58 16 * 2 ^ 16 + xslot % 16384 * 4 + 2)

/-- The leaf with X taken off. -/
def plainLeaf (v : Word) : Word := v &&& ~~~(BitVec.ofNat 64 (2 ^ 60))

/-- The request waits for what the invalidation it has applied awaits (R223, R225), and is then answered with this value. -/
def awaitPage (cl : Nat) (l : List AccRef) (w3 : Word) : M Unit := modCluster cl fun c => { c with mapping := some (l, w3) }

/-- A request of the ring: once the accesses its invalidation awaits have been performed or discarded, the answer (R225);
else `go` serves it. The CTU's read of the request is corrected or consumed as any other (R166). -/
def ringPage (s : State) (cl : Nat) (go : PageAsk → M Unit) : Host.Outcome State Fault Refusal :=
  match (s.cluster cl).mapping with
  | some (l, w3) =>
    if l.any s.owed then act s []
    else runM (do
      modCluster cl fun c => { c with mapping := none }
      ringAnswer cl 0 w3) s
  | none => runM (do
      match ringAt s cl with
      | some (k, off) =>
        if ← ringRead cl k off then go (← askPage cl (s.partOf (8 * cl)) (wbitsOf (ringWord s cl 0) 19 8) (ringWord s cl 1))
      | none => pure ()) s

/-- MAP_EXECUTABLE (R225): scan, and on OK bitmap, leaf, invalidation, and the answer once that has been performed. -/
def execMapExecutable (cluster : Nat) (s : State) : Host.Outcome State Fault Refusal :=
  if ringOp s cluster != some 0x01 then act s []
  else ringPage s cluster fun p => do
    match p with
    | .status n => ringAnswer cluster n 0
    | .leaf at_ v pa ia =>
      let (code, off, starts) := scanPage s.mem (farKey pa)
      if code == 0 then
        let xslot := wbitsOf (ringWord s cluster 2) 13 0
        pokes (farKey ((← xdirOf cluster) + 1024 * xslot)) (startBitmap starts)
        poke64 (farKey at_) (execLeaf v xslot)
        awaitPage cluster (← invalidate (s.partOf (8 * cluster)) (.ia ia) none) (verdictWord code off)
      else ringAnswer cluster 0 (verdictWord code off)

/-- WITHDRAW_EXECUTABLE (R225, R48), answered once the invalidation has been performed. -/
def execWithdrawExecutable (cluster : Nat) (s : State) : Host.Outcome State Fault Refusal :=
  if ringOp s cluster != some 0x02 then act s []
  else ringPage s cluster fun p => do
    match p with
    | .status n => ringAnswer cluster n 0
    | .leaf at_ v pa ia =>
      let part := s.partOf (8 * cluster)
      poke64 (farKey at_) (plainLeaf v)
      let l ← invalidate part (.ia ia) none
      dropCodePage pa
      awaitPage cluster l 0

end Sys2Proof.Machine
end

