-- ==== Sys2Proof/Machine/Mgmt.lean ====
section
/-! DEFINITION. Management and debug requests (R351 to R354, R363, R369, R370, R374, R391): how a request is taken and
answered, and the operations 0x10 to 0x20. -/

namespace Sys2Proof.Machine

/-! ### Taking and answering a request (R352, R353) -/

/-- What a request comes to: a status and a byte count, or it waits for its effect, which for a termination is the end of
the task on a context. -/
inductive MgmtEnd where
  | done (status : Nat) (count : Nat := 0)
  | wait (on : Option (Nat × Nat × BitVec 8) := none)
  deriving DecidableEq, Repr

/-- The request of a path. A BAR2 request arrives when OP is written; a ring request, which stands in the ring, when the
CTU passes it on. -/
def waiting (s : State) (path : ReqPath) : Option MgmtReq :=
  match s.mgmt.reqs.find? fun r => r.path == path with
  | some r => some r
  | none =>
    match path with
    | .mailbox _ => none
    | .ring cl =>
      match ringOp s cl with
      | some op => if 0x10 ≤ op && op ≤ 0x20 then some { path := path, op := BitVec.ofNat 8 op } else none
      | none => none

/-- Where n bytes that a request names stand: bus memory of the port for BAR2, a pool of the supervisor partition for a
ring request (R354). A pool behind a fence answers the controller with a NACK (R340), and the address names nothing it can
reach: status 0x02 (DESIGN CHOICE, log 56). -/
def argKey (s : State) (path : ReqPath) (a : Word) (n : Nat) : Option Nat :=
  match path with
  | .mailbox p => some (busKey p a.toNat)
  | .ring _ =>
    match classify a n, s.supPart with
    | .core id off, some p =>
      if off + n ≤ poolSize then ((s.phys p id).filter fun k => !s.fencedHome (.pool k)).map fun k => poolKey k off else none
    | _, _ => none

/-- The parameter block of a request, p0 to p7; none when a ring request names no block. -/
def paramsOf (s : State) (r : MgmtReq) : Option (List Word) :=
  match r.path with
  | .mailbox _ => some r.param
  | .ring cl =>
    if r.begun then some r.param
    else (argKey s r.path (ringWord s cl 1) 64).map fun k => (List.range 8).map fun i => Mem.read64 s.mem (k + 8 * i)

/-- The request raises or releases the eclipse line of the partition (0x1A, 0x1D). -/
def onLine (part op : Nat) (p : List Nat) : Bool :=
  (op == 0x1A || (op == 0x1D && (p.getD 0 0).testBit 8)) && p.getD 0 0 % 64 == part

/-- A request is a pre-emption that has begun and that the eclipse line of its partition pauses (R341): the partition. -/
def State.paused (s : State) (r : MgmtReq) : Option Nat :=
  let id := (r.param.headD 0).toNat % 64
  if r.begun && r.op == 0x13 && (match s.part? id with
    | some x => x.eclipse.isSome
    | none => false) then some id else none

/-- Requests are served one at a time, in arrival order (R352): it is the oldest. While the oldest is a pre-emption that the
line pauses, which goes on only by a release (R341), the requests on that line are served among themselves in arrival
order (DEDUCED, log 44). -/
def State.turnOf (s : State) (path : ReqPath) (op : Nat) (p : List Nat) : Bool :=
  match s.mgmt.reqs with
  | [] => true
  | h :: t => h.path == path || (match s.paused h with
      | some id => onLine id op p && (t.takeWhile fun x => x.path != path).all fun x =>
          !onLine id x.op.toNat (((paramsOf s x).getD []).map (·.toNat))
      | none => false)

/-- Answer a request (R353). -/
def answer (path : ReqPath) (status count : Nat) : M Unit := do
  modMgmt fun m => { m with reqs := m.reqs.filter fun r => r.path != path }
  match path with
  | .mailbox p =>
    modPort p fun x => { x with busy := false, done := true, status := BitVec.ofNat 8 status, count := BitVec.ofNat 32 count }
    signal p 0
  | .ring cl => ringAnswer cl status (BitVec.ofNat 64 (status + count % 2 ^ 32 * 2 ^ 8))

/-- Parameters lie within the bits of Table 8 of R354: a mask for each word. -/
def fieldsOk (p masks : List Nat) : Bool :=
  (List.range 8).all fun i => (p.getD i 0 ||| masks.getD i 0) == masks.getD i 0

/-- A mask of bits. -/
def mask (l : List (Nat × Nat)) : Nat := l.foldl (fun a x => a ||| ((2 ^ (x.1 + 1 - x.2) - 1) * 2 ^ x.2)) 0

def allBits : Nat := 2 ^ 64 - 1

/-- The request takes its place in the arrival order, once. -/
def arriveReq (r : MgmtReq) : M Unit :=
  modMgmt fun m => { m with reqs := if m.reqs.any (fun x => x.path == r.path) then m.reqs else m.reqs ++ [r] }

/-- The request stands as it does after `r` of its path. -/
def keepReq (r : MgmtReq) : M Unit := do
  arriveReq r
  modMgmt fun m => { m with reqs := m.reqs.map fun x => if x.path == r.path then r else x }

/-- The controller reads a pool word by word as any other device: corrected, or consumed by its cluster (R166). The home
check tells it as the unit of that cluster (DESIGN CHOICE, log 56). -/
def mgmtRead (key n : Nat) : M Unit := do
  if key < poolKey 4608 0 then
    let _ ← unitRead (key / poolStride / 8) (key / poolStride) (key % poolStride) n

/-- The reads of a request's record and parameter block. -/
def readRequest (r : MgmtReq) : M Unit := do
  match r.path with
  | .mailbox _ => pure ()
  | .ring cl =>
    let s ← getS
    match ringAt s cl with
    | some (k, off) => mgmtRead (poolKey k off) 32
    | none => pure ()
    match argKey s r.path (ringWord s cl 1) 64 with
    | some k => mgmtRead k 64
    | none => pure ()

/-- Serve the request of a path when it is of this operation and of the kind `mine` picks: `body` gives its end. Out of
turn it only arrives. Before start step 12 only the start record is served (R360). -/
def serve (path : ReqPath) (op : Nat) (mine : List Nat → Bool) (masks : List Nat) (body : MgmtReq → List Nat → M MgmtEnd)
    (s : State) : Host.Outcome State Fault Refusal :=
  let on := s.mgmt.start == .running || s.mgmt.start == .managementOnly
  match waiting s path with
  | none => act s []
  | some r =>
    if !on || r.op.toNat != op then act s []
    else match paramsOf s r with
      | none =>
        if !mine [] then act s []
        else if s.turnOf path op [] then runM (answer path 0x02 0) s
        else runM (arriveReq r) s
      | some ws =>
        let p := ws.map (·.toNat)
        if !mine p then act s []
        else if !s.turnOf path op p then runM (arriveReq r) s
        else runM (do
          if !r.begun then readRequest r
          let e ← if s.mgmt.start != .running && op != 0x18 then pure (MgmtEnd.done 0x05)
            else if !fieldsOk p masks then pure (.done 0x02)
            else body r p
          match e with
          | .done st n => answer path st n
          | .wait on => keepReq { r with param := ws, begun := true, target := on }) s

def anyParams (_ : List Nat) : Bool := true

/-- Put the result of a request into its buffer (R353, R354). -/
def putResult (path : ReqPath) (p : List Nat) (bs : List Byte) : M MgmtEnd := do
  let size := p.getD 6 0
  let fit := bs.take size
  match argKey (← getS) path (BitVec.ofNat 64 (p.getD 7 0)) fit.length with
  | none => return .done 0x02
  | some k =>
    match path with
    | .mailbox _ => pokes k fit
    | .ring cl => if !fit.isEmpty then deviceWrite (k / poolStride) (k % poolStride) fit (← unitAgent cl 0 0)
    return .done (if size < bs.length then 0x06 else 0x00) bs.length

/-- Bytes a request names; none when they lie nowhere. -/
def getArg (path : ReqPath) (a n : Nat) : M (Option (List Byte)) := do
  let s ← getS
  match argKey s path (BitVec.ofNat 64 a) n with
  | none => return none
  | some k =>
    mgmtRead k n
    return some (Mem.read s.mem k n)

/-! ### Partitions (R351, R391) -/

/-- A cluster map: none when an entry is not valid, a cluster appears twice, or the module has none of that number. -/
def readMap (path : ReqPath) (a n : Nat) : M (Option (List Nat)) := do
  match ← getArg path a (2 * n) with
  | none => return none
  | some b =>
    let es := (List.range n).map fun i => field b (2 * i) 2
    let ids := es.map (· % 1024)
    if n == 0 || es.any (fun e => !e.testBit 15 || bits e 14 10 != 0) || ids.any (576 ≤ ·) || !ids.Nodup then return none
    return some ids

/-- PARTW of every core of clusters. -/
def setPartw (cls : List Nat) (w : Word) : M Unit := do
  for cl in cls do
    for i in List.range 8 do modCore (8 * cl + i) fun c => { c with regs := { c.regs with partw := w } }

/-- CREATE_PARTITION (R351, R354, R391). -/
def execCreatePartition (path : ReqPath) (s : State) : Host.Outcome State Fault Refusal :=
  serve path 0x10 anyParams
    [mask [(5, 0), (9, 8), (27, 16), (56, 32)], mask [(23, 0)], mask [(47, 0)], mask [(47, 0)], mask [(47, 0)], allBits, allBits,
     mask [(9, 0)]]
    (fun _ p => do
      let w := p.getD 0 0
      let g := fun i => p.getD i 0
      let id := w % 64
      let q0 := bits w 19 16
      let q1 := bits w 23 20
      let q2 := bits w 27 24
      if q0 + q1 + q2 > 8 || bits w 43 32 + bits w 56 44 > 4096 || !partwOk (BitVec.ofNat 64 (g 1)) then return .done 0x02
      match ← readMap path (g 6) (g 7) with
      | none => return .done 0x02
      | some m =>
        if (s.part? id).isSome || m.any fun k => (s.owner k).isSome then return .done 0x05
        setPartw m (BitVec.ofNat 64 (g 1))
        eff (.part id {
          sup := w.testBit 8, map := m, abase := bits w 43 32, acount := bits w 56 44, s2root := g 2, stopa := g 3
          savea := g 4, saveSize := g 5, partw := BitVec.ofNat 64 (g 1), q0 := q0, q1 := q1, q2 := q2, be := w.testBit 9 })
        return .done 0) s

/-- V := 0 in every entry of a table that a partition owns (R356). -/
def dropSlots (id : Nat) (t : Vector (BitVec 7) 64) : Vector (BitVec 7) 64 :=
  t.map fun e => if e.getLsbD 6 && e.toNat % 64 == id then e &&& 0x3F else e

/-- Clusters a partition gives up are reset and unowned (R391). -/
def giveUp (cls : List Nat) : M Unit := do
  for cl in cls do
    nackHomes cl
    resetCluster cl

/-- DESTROY_PARTITION (R391, R353, R356): clusters, queues and time slots are released. -/
def execDestroyPartition (path : ReqPath) (s : State) : Host.Outcome State Fault Refusal :=
  serve path 0x11 anyParams [mask [(5, 0)]]
    (fun _ p => do
      let id := p.getD 0 0
      match s.part? id with
      | none => return .done 0x04
      | some x =>
        if !x.quiesced then return .done 0x05
        giveUp x.map
        modMgmt fun m => { m with
          queues := m.queues.map fun q => (q.1, if q.2.part == id then { q.2 with en := false } else q.2)
          meshSlots := dropSlots id m.meshSlots, memSlots := dropSlots id m.memSlots
          nextSlots := m.nextSlots.map fun y => (y.1, dropSlots id y.2) }
        for l in s.launches do
          if l.2.part == id && !l.2.done then eff (.launch l.1 { l.2 with done := true })
        eff (.dropPart id)
        return .done 0) s

/-- SET_QUEUE (R344). -/
def execSetQueue (path : ReqPath) (s : State) : Host.Outcome State Fault Refusal :=
  serve path 0x12 anyParams [mask [(12, 0), (17, 16), (23, 20), (28, 24), (37, 32), (41, 40)], allBits, allBits]
    (fun _ p => do
      let w := p.getD 0 0
      let log2n := bits w 28 24
      let loc := bits w 23 20
      let ring := p.getD 1 0
      let cring := p.getD 2 0
      if loc > 9 || log2n == 0 || log2n > 16 || ring % 64 != 0 || cring % 16 != 0 then return .done 0x02
      modQueue (w % 8192) fun q => {
        en := w.testBit 16, loc := loc, log2n := log2n, part := bits w 37 32, qclass := bits w 41 40
        ring := BitVec.ofNat 64 ring, cring := BitVec.ofNat 64 cring, ie := w.testBit 17, taken := q.taken }
      return .done 0) s

/-- PREEMPT_PARTITION (R336, R353): answered once the save-area header has been written. -/
def execPreemptPartition (path : ReqPath) (s : State) : Host.Outcome State Fault Refusal :=
  serve path 0x13 anyParams [mask [(5, 0)]]
    (fun r p => do
      let id := p.getD 0 0
      match s.part? id with
      | none => return .done 0x04
      | some x =>
        match x.preempt with
        | none =>
          if r.begun then return .done 0x05
          beginPreempt id
          return .wait
        | some q =>
          if !r.begun then return .done 0x05
          return if q.stage == .saved then .done 0 else .wait) s

/-- The engine jobs of a partition hold slots. -/
def holdsSlot (s : State) (p : Partition) (id : Nat) : Bool :=
  p.map.any fun cl => (s.cluster cl).slots.any fun x => (x.2.job.map fun j => j.part == id).getD false

/-- RESUME_PARTITION (R338, R391, R9). -/
def execResumePartition (path : ReqPath) (s : State) : Host.Outcome State Fault Refusal :=
  serve path 0x14 anyParams [mask [(5, 0)], allBits, 0, 0, 0, 0, 0, mask [(9, 0)]]
    (fun _ p => do
      let id := p.getD 0 0
      match s.part? id with
      | none => return .done 0x04
      | some x =>
        match x.preempt with
        | none => return .done 0x05
        | some q =>
          if q.stage != .saved then return .done 0x05
          else if p.getD 1 0 == 0 then
            returnAll id
            return .done 0
          else match ← readMap path (p.getD 1 0) (p.getD 7 0) with
            | none => return .done 0x02
            | some m =>
              let taken := m.any fun k => match s.owner k with
                | some (o, _) => o != id
                | none => false
              let lost := (List.range q.records).any fun i => 8 * m.length ≤ recCore (saveRecord s x i)
              if !x.quiesced || taken || lost || holdsSlot s x id then return .done 0x05
              giveUp (x.map.filter fun k => !m.contains k)
              setPartw (m.filter fun k => !x.map.contains k) x.partw
              modPart id fun x => { x with map := m }
              returnAll id
              return .done 0) s

/-- SET_TIME_SLOT_TABLES (R356, R357): loaded; in force from the first frame that starts after. -/
def execSetTimeSlotTables (path : ReqPath) (s : State) : Host.Outcome State Fault Refusal :=
  serve path 0x15 anyParams [mask [(0, 0)], allBits]
    (fun _ p => do
      match ← getArg path (p.getD 1 0) 64 with
      | none => return .done 0x02
      | some b =>
        if b.any fun x => x.getLsbD 7 then return .done 0x02
        let t : Vector (BitVec 7) 64 := Vector.ofFn fun i => BitVec.ofNat 7 (field b i.val 1)
        modMgmt fun m => { m with nextSlots := m.nextSlots ++ [((p.getD 0 0).testBit 0, t)] }
        return .done 0) s

/-- SET_UMBRAE (R339): a table that covers every cluster exactly once; an id that stays keeps its stage (R340). -/
def execSetUmbrae (path : ReqPath) (s : State) : Host.Outcome State Fault Refusal :=
  serve path 0x16 anyParams [allBits, mask [(6, 0)]]
    (fun _ p => do
      let n := p.getD 1 0
      if n == 0 || 64 < n then return .done 0x02
      match ← getArg path (p.getD 0 0) (8 * n) with
      | none => return .done 0x02
      | some b =>
        let es := (List.range n).map fun i => field b (8 * i) 8
        let us := es.map fun e =>
          let id := e % 64
          ({ id := id, x0 := bits e 12 8, y0 := bits e 20 16, x1 := bits e 28 24, y1 := bits e 36 32
             stage := ((s.umbra? id).map (·.stage)).getD .ok } : Umbra)
        let ok := es.all (fun e => e ||| mask [(5, 0), (12, 8), (20, 16), (28, 24), (36, 32)] ==
            mask [(5, 0), (12, 8), (20, 16), (28, 24), (36, 32)]) && (us.map (·.id)).Nodup &&
          us.all (fun u => u.x0 ≤ u.x1 && u.y0 ≤ u.y1 && u.x1 < 24 && u.y1 < 24) &&
          (List.range 576).all fun k => (us.filter fun u => (clustersOf u).contains k).length == 1
        if !ok then return .done 0x02
        modMgmt fun m => { m with umbrae := us }
        return .done 0) s

/-! ### Tasks (R333) -/

/-- Terminate the task with a GTID wherever it stands; a task of a context ends once that context is FREE, and the answer
names it. A task re-queued after a save ends its span on the core it was re-queued to: no rule gives the context of its
almanac entry (log 25). -/
def endByGtid (g : Word) : M (Option (Nat × Nat × BitVec 8)) := do
  let s ← getS
  match s.ctxs.find? fun x => x.2.status != .free && x.2.task.gtid == g with
  | some (k, c) =>
    if c.phase != .killing && c.phase != .after .terminate then terminateCtx (k / 16) (k % 16)
    return some (k / 16, k % 16, c.gen)
  | none =>
    match s.cores.findSome? fun x => (x.2.pslots.find? fun y => y.2.st != .reserved && y.2.task.gtid == g).map fun y => (x.1, y) with
    | some (core, (p, ps)) => killParked core p ps; return none
    | none =>
      match s.cores.findSome? fun x => (x.2.deque.find? fun d => d.gtid == g).map fun d => (x.1, d) with
      | some (core, d) =>
        modCore core fun k => { k with deque := k.deque.erase d }
        endTask d.launch true
        return none
      | none =>
        match s.cores.findSome? fun x => (x.2.arrivals.find? fun a => a.task.gtid == g).map fun a => (x.1, a) with
        | some (core, a) =>
          modCore core fun k => { k with arrivals := k.arrivals.erase a }
          endTask a.task.launch true
          return none
        | none =>
          let inQueue := fun (r : Requeue) => match r with
            | .runnable _ _ t _ => t.gtid == g
            | _ => false
          match s.cores.findSome? fun x => (x.2.requeue.find? inQueue).map fun r => (x.1, r) with
          | some (core, r) =>
            modCore core fun k => { k with requeue := k.requeue.erase r }
            match r with
            | .runnable _ _ t _ =>
              almanacOf core (ofBytes (← freeBytes 1) % 16) t 2
              endTask t.launch true
            | _ => pure ()
            return none
          | none =>
            let savedIn := fun (p : Partition) => (p.preempt.bind fun q => q.tasks.find? fun x => x.1.gtid == g)
            match s.parts.findSome? fun x => (savedIn x.2).map fun t => (x.1, t) with
            | some (id, t) =>
              modPart id fun p => { p with preempt := p.preempt.map fun q => { q with tasks := q.tasks.erase t } }
              endTask t.1.launch true
              return none
            | none => return none

/-- TERMINATE_TASK (R333, R353): answered once the task has ended. -/
def execTerminateTask (path : ReqPath) (s : State) : Host.Outcome State Fault Refusal :=
  serve path 0x17 anyParams [allBits]
    (fun r p => do
      let on ← if r.begun then pure r.target else endByGtid (BitVec.ofNat 64 (p.getD 0 0))
      match on with
      | none => return .done 0
      | some (core, ctx, gen) =>
        let c ← getCtx core ctx
        return if c.status == .free || c.gen != gen then .done 0 else .wait on) s

/-! ### Records and reports -/

/-- The start record: 112 bytes (R361). -/
def startRecord (f : Flash) : List Byte :=
  bytesOf 8 f.starts.toNat ++ bytesOf 8 f.clk12.toNat ++ f.steps.toList.flatMap fun e =>
    bytesOf 8 (e.outcome.toNat + e.method.toNat * 2 ^ 8 + e.detail.toNat * 2 ^ 16 + e.millis.toNat * 2 ^ 32)

/-- READ_START_RECORD (R361). -/
def execReadStartRecord (path : ReqPath) (s : State) : Host.Outcome State Fault Refusal :=
  serve path 0x18 anyParams [0, 0, 0, 0, 0, 0, mask [(31, 0)], allBits]
    (fun _ p => putResult path p (startRecord s.mgmt.flash)) s

/-- A partition's record in the attestation report: Table 4 of R351 in the words of "create", the map at the end
(log 10). -/
def partitionBytes (id : Nat) (p : Partition) : List Byte :=
  bytesOf 8 (id + (if p.sup then 2 ^ 8 else 0) + (if p.be then 2 ^ 9 else 0) + p.q0 * 2 ^ 16 + p.q1 * 2 ^ 20 + p.q2 * 2 ^ 24 +
      p.abase * 2 ^ 32 + p.acount * 2 ^ 44) ++ bytesOf 8 p.partw.toNat ++ bytesOf 8 p.s2root ++ bytesOf 8 p.stopa ++
    bytesOf 8 p.savea ++ bytesOf 8 p.saveSize ++ bytesOf 8 p.map.length ++ p.map.flatMap fun k => bytesOf 2 (k + 2 ^ 15)

/-- The configuration record as flash lays it out. -/
def recordBytes (r : ConfigRecord) : List Byte :=
  Config.recordImage r.version.toNat r.s2root r.stopa r.savea r.saveSize r.partw.toNat
    (r.peers.map fun x => (x.1.map (·.toNat), x.2))

/-- The firmware image that runs: the copy start step 3 took (R360). -/
def runningFirmware (f : Flash) : List Byte := Config.firmware ((vget {} f.steps 2).outcome == 4)

/-- The report that is signed: nonce, module id, digests of firmware, configuration record and start record, partition
table (log 10). -/
def reportBody (s : State) (nonce : List Byte) : List Byte :=
  nonce ++ bytesOf 8 Config.moduleId.toNat ++ sha384 (runningFirmware s.mgmt.flash) ++
    sha384 (recordBytes s.mgmt.flash.inUse) ++ sha384 (startRecord s.mgmt.flash) ++
    s.parts.flatMap fun x => partitionBytes x.1 x.2

/-- ATTESTATION_REPORT (R363): the report and its signature; then the certificate. -/
def execAttestationReport (path : ReqPath) (s : State) : Host.Outcome State Fault Refusal :=
  serve path 0x19 anyParams [allBits, allBits, allBits, allBits, 0, 0, mask [(31, 0)], allBits]
    (fun _ p => do
      let body := reportBody s ((p.take 4).flatMap (bytesOf 8))
      let draw := (← getS).freeCtr
      eff (.drawFree 1)
      putResult path p (body ++ (List.range 96).map (Config.signatureByte draw body) ++
        (List.range Config.certBytes).map Config.certByte)) s

/-! ### The eclipse line (R334, R335) -/

def bit8 (b : Bool) (p : List Nat) : Bool := (p.getD 0 0).testBit 8 == b

/-- RAISE_ECLIPSE_LINE (R334, R353): source 5; answered once the stop-area header has been written. -/
def execRaiseEclipseLine (path : ReqPath) (s : State) : Host.Outcome State Fault Refusal :=
  serve path 0x1A (bit8 true) [mask [(5, 0), (8, 8)]]
    (fun r p => do
      let id := p.getD 0 0 % 64
      match s.part? id with
      | none => return .done 0x04
      | some x =>
        match x.eclipse with
        | some e => return if e.written then .done 0 else .wait
        | none =>
          if !r.begun || x.raises.isEmpty then requestRaise id .controller 0
          return .wait) s

/-- RELEASE_ECLIPSE_LINE (R335). -/
def execReleaseEclipseLine (path : ReqPath) (s : State) : Host.Outcome State Fault Refusal :=
  serve path 0x1A (bit8 false) [mask [(5, 0), (8, 8)]]
    (fun _ p => do
      let id := p.getD 0 0 % 64
      if (s.part? id).isNone then return .done 0x04
      releaseLine id
      return .done 0) s

/-! ### Debug operations (R374) -/

/-- Attach or detach (0x1B). -/
def setAttached (path : ReqPath) (b : Bool) (s : State) : Host.Outcome State Fault Refusal :=
  serve path 0x1B (bit8 b) [mask [(5, 0), (8, 8)]]
    (fun _ p => do
      let id := p.getD 0 0 % 64
      if (s.part? id).isNone then return .done 0x04
      modPart id fun x => { x with attached := b }
      return .done 0) s

/-- ATTACH (R374). -/
def execAttach (path : ReqPath) (s : State) : Host.Outcome State Fault Refusal := setAttached path true s

/-- DETACH (R374). -/
def execDetach (path : ReqPath) (s : State) : Host.Outcome State Fault Refusal := setAttached path false s

/-- SET_BREAKPOINT (R369). -/
def execSetBreakpoint (path : ReqPath) (s : State) : Host.Outcome State Fault Refusal :=
  serve path 0x1C anyParams [mask [(5, 0), (11, 8)], mask [(63, 62)], allBits, allBits]
    (fun _ p => do
      let id := p.getD 0 0 % 64
      match s.part? id with
      | none => return .done 0x04
      | some x =>
        if !x.attached then return .done 0x05
        let b : Breakpoint := {
          valid := (p.getD 1 0).testBit 63, line := (p.getD 1 0).testBit 62, gtid := BitVec.ofNat 64 (p.getD 2 0)
          addr := BitVec.ofNat 64 (p.getD 3 0) }
        modPart id fun x => { x with bps := vset x.bps (bits (p.getD 0 0) 11 8) b }
        return .done 0) s

/-- A halted context goes on (R332, R370, R372): what halted it is ignored in the block's next execution, as is what an
earlier release of the same block had it ignore. -/
def releaseCtx (c : Ctx) : Ctx :=
  let by_ := fun (h : HaltBy) => c.haltBy == some .saved || c.haltBy == some h
  { c with status := .active, haltBy := none
           task := c.task.skipping c.nextBlock fun x =>
             { x with bkpt := x.bkpt || by_ .bkpt, brk := x.brk || by_ .breakpoint, watch := x.watch || by_ .watch } }

/-- RELEASE_CONTEXT (R370, R372, R332). -/
def execReleaseContext (path : ReqPath) (s : State) : Host.Outcome State Fault Refusal :=
  serve path 0x1D (bit8 false) [mask [(5, 0), (8, 8), (28, 16), (35, 32)]]
    (fun _ p => do
      let w := p.getD 0 0
      match s.part? (w % 64) with
      | none => return .done 0x04
      | some x =>
        if !x.attached then return .done 0x05
        match physIn x (bits w 28 16) with
        | none => return .done 0x02
        | some k =>
          let ctx := bits w 35 32
          let c := s.ctx k ctx
          if c.status != .halted || c.haltBy == none || c.haltBy == some .line then return .done 0x05
          setCtx k ctx (releaseCtx c)
          return .done 0) s

/-- RELEASE_PARTITION (R335): the debugger releases the eclipse line. -/
def execReleasePartition (path : ReqPath) (s : State) : Host.Outcome State Fault Refusal :=
  serve path 0x1D (bit8 true) [mask [(5, 0), (8, 8)]]
    (fun _ p => do
      let id := p.getD 0 0 % 64
      match s.part? id with
      | none => return .done 0x04
      | some x =>
        if !x.attached then return .done 0x05
        releaseLine id
        return .done 0) s

/-- A debugger is attached to the partition of a physical core. -/
def attachedCore (s : State) (core : Nat) : Bool := (s.partRec core).attached

/-- READ_CONTEXT (R374): the 576-byte record of a context, by module core number (log 20). -/
def execReadContext (path : ReqPath) (s : State) : Host.Outcome State Fault Refusal :=
  serve path 0x1E anyParams [mask [(12, 0), (19, 16)], 0, 0, 0, 0, 0, mask [(31, 0)], allBits]
    (fun _ p => do
      let core := p.getD 0 0 % 8192
      let ctx := bits (p.getD 0 0) 19 16
      if 4608 ≤ core then return .done 0x02
      if !attachedCore s core then return .done 0x05
      let c := s.ctx core ctx
      let i : RecInfo := {
        blk := c.nextBlock, gtid := c.task.gtid, cond := condWord 0 0 ctx c.gen.toNat, kind := 2
        halted := c.status == .halted, core := s.logical core }
      putResult path p (taskRecord c.regs i)) s

/-- WRITE_CONTEXT (R374): a HALTED context takes the registers given. -/
def execWriteContext (path : ReqPath) (s : State) : Host.Outcome State Fault Refusal :=
  serve path 0x1F anyParams [mask [(12, 0), (19, 16)], allBits]
    (fun _ p => do
      let core := p.getD 0 0 % 8192
      let ctx := bits (p.getD 0 0) 19 16
      if 4608 ≤ core then return .done 0x02
      if !attachedCore s core || (s.ctx core ctx).status != .halted then return .done 0x05
      match ← getArg path (p.getD 1 0) 576 with
      | none => return .done 0x02
      | some b =>
        modCtx core ctx fun c => { c with regs := recordRegs b }
        return .done 0) s

/-- A unit of a cluster as R354 lays it out; the debugger must be attached unless no partition owns the cluster (R391). -/
def readUnit (path : ReqPath) (unit : Nat) (extra : Bool) (image : Nat → Nat → List Byte) (s : State) :
    Host.Outcome State Fault Refusal :=
  serve path 0x20 (fun p => bits (p.getD 0 0) 17 16 == unit || (extra && bits (p.getD 0 0) 17 16 == 3))
    [mask [(9, 0), (17, 16), (22, 20)], 0, 0, 0, 0, 0, mask [(31, 0)], allBits]
    (fun _ p => do
      let w := p.getD 0 0
      let cl := w % 1024
      if bits w 17 16 == 3 || 576 ≤ cl || (unit != 1 && bits w 22 20 != 0) then return .done 0x02
      if (s.owner cl).isSome && !attachedCore s (8 * cl) then return .done 0x05
      putResult path p (image cl (bits w 22 20))) s

/-- A job-queue record. -/
def slotBytes (s : State) (q : QSlot) : List Byte :=
  match q.job with
  | none => bytesOf 8 (q.gen.toNat * 2 ^ 16 + q.status.toNat * 2 ^ 24) ++ bytesOf 24 0
  | some j =>
    let st := match j.st with
      | .queued => 1
      | .running => 2
      | _ => 3
    bytesOf 8 (st + j.engine * 2 ^ 8 + q.gen.toNat * 2 ^ 16 + q.status.toNat * 2 ^ 24) ++ bytesOf 8 j.gtid.toNat ++
      bytesOf 8 (s.logical j.core + j.ctx * 2 ^ 16) ++ bytesOf 8 j.clk

/-- READ_JOB_QUEUE (R354); it also answers a unit that does not exist. -/
def execReadJobQueue (path : ReqPath) (s : State) : Host.Outcome State Fault Refusal :=
  readUnit path 0 true (fun cl _ => (List.range 64).flatMap fun i => slotBytes s (s.slotOf cl i)) s

/-- A wake-table entry (Table 13 of R183). -/
def wakeWord (s : State) (e : WakeEntry) : Nat :=
  2 ^ 63 + e.cond.toNat * 2 ^ 61 + e.pslot * 2 ^ 48 + e.gen.toNat * 2 ^ 40 + e.ctx * 2 ^ 36 + s.logical e.core * 2 ^ 23 + e.off

/-- READ_WAKE_TABLE (R354, R183). -/
def execReadWakeTable (path : ReqPath) (s : State) : Host.Outcome State Fault Refusal :=
  readUnit path 1 false (fun cl i => (List.range 256).flatMap fun n =>
    match (s.core (8 * cl + i)).wakeTable.find? fun x => x.1 == n with
    | some x => bytesOf 8 (wakeWord s x.2)
    | none => bytesOf 8 0) s

/-- READ_COPY_TRACE (R354, R244): 192 records, oldest first. -/
def execReadCopyTrace (path : ReqPath) (s : State) : Host.Outcome State Fault Refusal :=
  readUnit path 2 false (fun cl _ => (List.range 192).flatMap fun n =>
    match (s.cluster cl).trace[n]? with
    | some r => r.flatMap fun w => bytesOf 8 w.toNat
    | none => bytesOf 48 0) s

/-! ### Unknown operations -/

/-- UNKNOWN_OPERATION (R224, R353): status 3. -/
def execUnknownOperation (path : ReqPath) (op : BitVec 8) (s : State) : Host.Outcome State Fault Refusal :=
  match path with
  | .mailbox _ =>
    match waiting s path with
    | some r =>
      if r.op == op && !(0x10 ≤ op.toNat && op.toNat ≤ 0x20) && s.mgmt.start != .off && s.turnOf path op.toNat [] then
        runM (answer path 0x03 0) s
        else act s []
    | none => act s []
  | .ring cl =>
    let n := op.toNat
    match ringAt s cl with
    | some (k, off) =>
      if ringOp s cl == some n && n != 1 && n != 2 && !(0x10 ≤ n && n ≤ 0x20) then
        runM (do if ← ringRead cl k off then ringAnswer cl 3 0) s
      else act s []
    | none => act s []

end Sys2Proof.Machine
end

