-- ==== Sys2Proof/Machine/Start.lean ====
section
/-! DEFINITION. The start of the module (R360 to R362, R351), its temperature (R364), the time-slot frame (R356, R357)
and the clock with its event counters (R365 to R367). -/

namespace Sys2Proof.Machine

/-! ### Start -/

/-- Table 9: a step that may be left out, and a step that has an alternate method. -/
def stepOptional (n : Nat) : Bool := n == 10 || n == 11

def stepAlternate (n : Nat) : Bool := [3, 4, 6, 8, 9, 11, 12].contains n

/-- What a step that nothing is known of meets: it passes (log 1). -/
def cleanRun : StepRun := { primaryOk := true, alternateOk := true, detail := 0, millis := 0 }

/-- Both signatures verify. -/
def Signed.ok (x : Signed) : Bool := x.rsa && x.slh

/-- A configuration record is refused when a signature does not verify or its version lies below the highest accepted
(R362). -/
def Flash.admits (f : Flash) (r : ConfigRecord) : Bool := r.signed.ok && f.accepted.toNat ≤ r.version.toNat

/-- Steps 3 and 4 pass only for an image and a record that R362 lets pass, and as far as the environment lets them. -/
def admitRecord (f : Flash) (n : Nat) (r : StepRun) : StepRun :=
  if n == 3 then { r with primaryOk := r.primaryOk && f.image.ok, alternateOk := r.alternateOk && f.copy.ok }
  else if n == 4 then { r with
    primaryOk := r.primaryOk && f.admits f.record
    alternateOk := r.alternateOk && f.admits f.previous }
  else r

/-- The record step 4 leaves in use, and the highest version accepted, after the outcome of the step (R360, R362). -/
def Flash.taking (f : Flash) (outcome : BitVec 8) : Flash :=
  let take := fun (r : ConfigRecord) =>
    { f with inUse := r, accepted := if f.accepted.toNat ≤ r.version.toNat then r.version else f.accepted }
  if outcome == 1 then take f.record else if outcome == 4 then take f.previous else f

/-- One start step (R360): its entry of the start record (R361). -/
def runStep (n : Nat) (last : BitVec 8) (r : StepRun) : StepRec :=
  let byAlternate : StepRec :=
    { outcome := if r.alternateOk then 4 else 2, method := 1, detail := r.detail, millis := r.millis }
  if last == 2 && stepOptional n then { outcome := 3 }
  else if last == 2 && stepAlternate n then byAlternate
  else if r.primaryOk then { outcome := 1, millis := r.millis }
  else if stepAlternate n then byAlternate
  else { outcome := 2, detail := r.detail, millis := r.millis }

/-- The step lets the start go on. -/
def stepPasses (n : Nat) (e : StepRec) : Bool := e.outcome != 2 || stepOptional n

/-- Steps n and on; those after a failure that stops the start are not run. -/
def runSteps (f : Flash) (rs : List StepRun) (n : Nat) : Nat → List StepRec
  | 0 => []
  | k + 1 =>
    let e := runStep n (vget {} f.steps (n - 1)).outcome (admitRecord f n (rs.getD (n - 1) cleanRun))
    if stepPasses n e then e :: runSteps f rs (n + 1) k else [e]

/-- Table 4's parameters of partition 0 (R351). -/
def partZero (f : ConfigRecord) : Partition :=
  { sup := true, map := List.range 576, abase := 0, acount := 4096, s2root := f.s2root, stopa := f.stopa,
    savea := f.savea, saveSize := f.saveSize, partw := f.partw, be := true }

/-- Step 12 is done: partition 0 stands, every time slot is its own (R351, R356). -/
def createZero : M Unit := do
  let f := (← getS).mgmt.flash.inUse
  eff (.part 0 (partZero f))
  for i in List.range 4608 do
    modCore (4607 - i) fun k => { k with regs := { k.regs with partw := f.partw } }

/-- MODULE_START (R360): the twelve steps. -/
def execModuleStart (outcomes : List StepRun) (s : State) : Host.Outcome State Fault Refusal :=
  if s.mgmt.start == .running then act s []
  else runM (do
    let f := s.mgmt.flash
    let es := runSteps f outcomes 1 12
    let ran := fun (n : Nat) => (es.getD (n - 1) {}).outcome
    let reached := es.length == 12 && stepPasses 12 (es.getD 11 {})
    let steps := Vector.ofFn fun i : Fin 12 =>
      let e := es.getD i.val {}
      if i.val == 0 && f.overtemp then { e with detail := Config.overtempDetail } else e
    let taken := f.taking (ran 4)
    let flash := { taken with
      steps := steps, overtemp := false, starts := f.starts + 1, clk12 := if es.length == 12 then s.clk else f.clk12 }
    modMgmt fun m => { m with
      start := if reached then .running else .managementOnly
      flash := flash }
    if ran 8 == 1 || ran 8 == 4 then
      eff (.wipe 0 (poolKey 4608 0))
      eff (.wipeSync 0 (poolKey 4608 0 / 8))
    if ran 8 == 4 then
      let dies := (outcomes.getD 7 cleanRun).detail
      modMgmt fun m => { m with umbrae := m.umbrae.map fun u =>
        if u.id < 8 && dies.getLsbD u.id then { u with stage := .noticed } else u }
    if reached then
      createZero
      modMgmt fun m => { m with meshSlots := Vector.replicate 64 64, memSlots := Vector.replicate 64 64 }) s

/-! ### Temperature -/

/-- DIE_ABOVE_95 (R364, R355): the host is told, and class-3 entries are deferred. -/
def execDieAbove95 (die : Nat) (s : State) : Host.Outcome State Fault Refusal :=
  if 8 ≤ die then act s []
  else runM (do
    modMgmt fun m => { m with hot95 := if m.hot95.contains die then m.hot95 else m.hot95 ++ [die] }
    deviceEvent 0 2) s

/-- DIE_BACK_AT_90 (R364, R355): every die is. -/
def execDieBackAt90 (s : State) : Host.Outcome State Fault Refusal :=
  if s.mgmt.hot95.isEmpty then act s []
  else runM (do
    modMgmt fun m => { m with hot95 := [], hot105 := [] }
    deviceEvent 0 4) s

/-- DIE_ABOVE_105 (R364): the eclipse line is to be raised in every partition, source 5; the 100 ms of the die begin. -/
def execDieAbove105 (die : Nat) (s : State) : Host.Outcome State Fault Refusal :=
  if 8 ≤ die then act s []
  else runM (do
    modMgmt fun m => { m with
      hot105 := m.hot105.filter (·.1 != die) ++ [(die, s.clk.toNat)] }
    for p in s.parts do requestRaise p.1 .controller 0) s

/-- 100 ms in clocks of 2.25 GHz (R14). -/
def overtempClocks : Nat := 225000000

/-- OVERTEMP_POWER_REMOVAL (R364): a die is still above 105 °C when its 100 ms are over, which the event tells (log 8). The
dies lose their state; flash keeps the event for the next start. -/
def execOvertempPowerRemoval (s : State) : Host.Outcome State Fault Refusal :=
  if s.mgmt.hot105.any fun x => x.2 + overtempClocks ≤ s.clk.toNat then
    act s [.powerLoss { start := .unpowered, umbrae := (List.range 8).map dieUmbra, peerIds := s.mgmt.peerIds,
                        flash := { s.mgmt.flash with overtemp := true } }]
  else act s []

/-! ### Time slots -/

/-- A frame starts, and a table waits to come into force. -/
def State.frameDue (s : State) : Bool := s.clk.toNat % 512 == 0 && !s.mgmt.nextSlots.isEmpty

/-- TIME_SLOT_FRAME (R356, R357): the tables written since come into force. -/
def execTimeSlotFrame (s : State) : Host.Outcome State Fault Refusal :=
  if s.frameDue then
    act s [.mgmt (s.mgmt.nextSlots.foldl (fun m x => if x.1 then { m with memSlots := x.2 } else { m with meshSlots := x.2 })
      { s.mgmt with nextSlots := [] })]
  else act s []

/-! ### The clock -/

/-- Sources marked "ctx" in Table 3. -/
def ctxSource (n : Nat) : Bool := (2 ≤ n && n ≤ 11) || (14 ≤ n && n ≤ 17) || n == 23 || n == 26 || n == 27

/-- A context whose slot this is has not used it though it could (R64, R67). -/
def State.slotOwed (s : State) (core ctx : Nat) : Bool :=
  let c := s.ctx core ctx
  slotOpen c ctx s.clk.toNat &&
    (match slotAct (c.onWin fun w => w.land s.clk.toNat) s.clk.toNat (s.niFull core ctx) with
    | .unused _ => false
    | _ => true)

/-- The event of a core's slot that nobody has used in this clock (Table 3). -/
def idleSlot (s : State) (k : Nat) : List (Bool × Nat × Nat × Nat × Nat) :=
  let ctx := s.clk.toNat % 16
  let c := s.ctx k ctx
  if slotOpen c ctx s.clk.toNat then
    match slotAct c s.clk.toNat (s.niFull k ctx) with
    | .unused n => [(true, k, n, ctx, 1)]
    | _ => []
  else []

/-- inc of R367 for a core counter: the events of the source selected, after the CF filter. -/
def coreInc (log : List (Bool × Nat × Nat × Nat × Nat)) (k : Nat) (sel : BitVec 13) : Nat :=
  let src := sel.toNat % 256
  let cf := sel.getLsbD 8
  if src == 0 || (cf && !ctxSource src) then 0
  else log.foldl (fun n e => if e.1 && e.2.1 == k && e.2.2.1 == src && (!cf || e.2.2.2.1 == sel.toNat / 512) then n + e.2.2.2.2 else n)
    (if src == 1 then 1 else 0)

/-- inc of R367 for a cluster counter. -/
def clusterInc (log : List (Bool × Nat × Nat × Nat × Nat)) (k : Nat) (c : Cluster) (sel : BitVec 9) : Nat :=
  let src := sel.toNat % 256
  let now := match src with
    | 0x01 => 1
    | 0x42 => if c.slots.any fun x => (x.2.job.map fun j => j.engine == 0 && j.st == .waitRecord).getD false then 1 else 0
    | 0x4C => (c.slots.filter fun x => x.2.job.isSome).length
    | 0x4D => c.replay.length
    | _ => 0
  if src == 0 then 0
  else log.foldl (fun n e => if !e.1 && e.2.1 == k && e.2.2.1 == src then n + e.2.2.2.2 else n) now

/-- One counter of R367: the new count, and whether it wrapped. -/
def bump (count : BitVec 48) (inc : Nat) : BitVec 48 × Bool :=
  (BitVec.ofNat 48 (count.toNat + inc), 2 ^ 48 ≤ count.toNat + inc)

/-- The core's counters after the clock. -/
def coreCounters (s : State) (k : Nat) (c : CoreRegs) : CoreRegs :=
  let log := s.evlog ++ idleSlot s k
  let r := c.evsel.zipWith (fun sel n => bump n (coreInc log k sel)) c.evcnt
  { c with
    evcnt := r.map (·.1)
    ovf := c.ovf ||| BitVec.ofNat 4 ((List.range 4).foldl (fun a i => if (vget (0, false) r i).2 then a + 2 ^ i else a) 0) }

/-- The cluster's counters after the clock: bit 8 of a select is OVF. -/
def clusterCounters (s : State) (k : Nat) (c : Cluster) : ClusterRegs :=
  let r := c.regs.sel.zipWith (fun sel n => bump n (clusterInc s.evlog k c sel)) c.regs.cnt
  { c.regs with
    cnt := r.map (·.1)
    sel := c.regs.sel.zipWith (fun sel x => if x.2 then sel ||| 256 else sel) r }

/-- The clock may end: no context owes its slot, no table its frame, and the dies have power. -/
def State.clockDone (s : State) : Bool :=
  s.mgmt.start != .unpowered && !s.frameDue && !s.ctxs.any fun x => s.slotOwed (x.1 / 16) (x.1 % 16)

/-- A counter of the core, or an MTC to one, is to be brought up to date. -/
def Core.counts (k : Core) : Bool := !k.mtcs.isEmpty || k.regs.evsel.any fun e => e.toNat % 256 != 0

def Cluster.counts (k : Cluster) : Bool := !k.mtcs.isEmpty || k.regs.sel.any fun e => e.toNat % 256 != 0

/-- The core at the end of the clock: MTCs of the clock, then its events (R367). -/
def Core.ticked (s : State) (k : Nat) (c : Core) : Core :=
  let c := c.applyMtcs
  { c with regs := coreCounters s k c.regs }

def Cluster.ticked (s : State) (k : Nat) (c : Cluster) : Cluster :=
  let c := c.applyMtcs
  { c with regs := clusterCounters s k c }

/-- The mesh takes the oldest message of the send queue of each core's NI, one a clock: R66 tells a queue's capacity and
not when it empties (DESIGN CHOICE, log 54). `done` are the cores whose message has gone. -/
def drainQueues (done : List Nat) : List (Source × Home × Req) → List (Source × Home × Req)
  | [] => []
  | x :: t =>
    if x.2.2.queued && !done.contains x.2.2.core then
      (x.1, x.2.1, { x.2.2 with queued := false }) :: drainQueues (x.2.2.core :: done) t
    else x :: drainQueues done t

/-- A send queue holds a message. -/
def Net.waiting (n : Net) : Bool := n.channels.any fun x => x.2.2.queued

/-- CLOCK (R367, R116): MTCs of the clock to counters and cluster registers stand (R106), every counter takes the events of
the clock, the NIs send, and CLK moves on. -/
def execClock (s : State) : Host.Outcome State Fault Refusal :=
  if s.clockDone then
    act s (((s.cores.filter fun x => x.2.counts).map fun x => Eff.core x.1 (x.2.ticked s x.1)) ++
      ((s.clusters.filter fun x => x.2.counts).map fun x => Eff.cluster x.1 (x.2.ticked s x.1)) ++
      (if s.net.waiting then [Eff.net { s.net with channels := drainQueues [] s.net.channels }] else []) ++ [.clearLog, .tick])
  else act s []

end Sys2Proof.Machine
end

