-- ==== Sys2Proof/Machine/Dispatch.lean ====
section
/-! DEFINITION. One arm per constructor of `Instr`, each a direct call of its meaning. -/

namespace Sys2Proof.Machine

def exec (i : Instr) (s : State) : Host.Outcome State Fault Refusal :=
  match i with
  | .add f => Sys2Proof.Machine.execAdd f s
  | .sub f => Sys2Proof.Machine.execSub f s
  | .mul f => Sys2Proof.Machine.execMul f s
  | .mulh f => Sys2Proof.Machine.execMulh f s
  | .mulhu f => Sys2Proof.Machine.execMulhu f s
  | .div f => Sys2Proof.Machine.execDiv f s
  | .divu f => Sys2Proof.Machine.execDivu f s
  | .rem f => Sys2Proof.Machine.execRem f s
  | .remu f => Sys2Proof.Machine.execRemu f s
  | .min f => Sys2Proof.Machine.execMin f s
  | .max f => Sys2Proof.Machine.execMax f s
  | .minu f => Sys2Proof.Machine.execMinu f s
  | .maxu f => Sys2Proof.Machine.execMaxu f s
  | .neg f => Sys2Proof.Machine.execNeg f s
  | .abs f => Sys2Proof.Machine.execAbs f s
  | .addi f => Sys2Proof.Machine.execAddi f s
  | .muli f => Sys2Proof.Machine.execMuli f s
  | .andi f => Sys2Proof.Machine.execAndi f s
  | .ori f => Sys2Proof.Machine.execOri f s
  | .xori f => Sys2Proof.Machine.execXori f s
  | .shli f => Sys2Proof.Machine.execShli f s
  | .shri f => Sys2Proof.Machine.execShri f s
  | .sari f => Sys2Proof.Machine.execSari f s
  | .ceqi f => Sys2Proof.Machine.execCeqi f s
  | .cnei f => Sys2Proof.Machine.execCnei f s
  | .clti f => Sys2Proof.Machine.execClti f s
  | .clei f => Sys2Proof.Machine.execClei f s
  | .cltui f => Sys2Proof.Machine.execCltui f s
  | .cleui f => Sys2Proof.Machine.execCleui f s
  | .lea f => Sys2Proof.Machine.execLea f s
  | .and f => Sys2Proof.Machine.execAnd f s
  | .or f => Sys2Proof.Machine.execOr f s
  | .xor f => Sys2Proof.Machine.execXor f s
  | .not f => Sys2Proof.Machine.execNot f s
  | .shl f => Sys2Proof.Machine.execShl f s
  | .shr f => Sys2Proof.Machine.execShr f s
  | .sar f => Sys2Proof.Machine.execSar f s
  | .rot f => Sys2Proof.Machine.execRot f s
  | .clz f => Sys2Proof.Machine.execClz f s
  | .ctz f => Sys2Proof.Machine.execCtz f s
  | .popc f => Sys2Proof.Machine.execPopc f s
  | .bfx f => Sys2Proof.Machine.execBfx f s
  | .bfi f => Sys2Proof.Machine.execBfi f s
  | .sext f => Sys2Proof.Machine.execSext f s
  | .zext f => Sys2Proof.Machine.execZext f s
  | .ceq f => Sys2Proof.Machine.execCeq f s
  | .cne f => Sys2Proof.Machine.execCne f s
  | .clt f => Sys2Proof.Machine.execClt f s
  | .cle f => Sys2Proof.Machine.execCle f s
  | .cltu f => Sys2Proof.Machine.execCltu f s
  | .cleu f => Sys2Proof.Machine.execCleu f s
  | .pand f => Sys2Proof.Machine.execPand f s
  | .por f => Sys2Proof.Machine.execPor f s
  | .pxor f => Sys2Proof.Machine.execPxor f s
  | .pnot f => Sys2Proof.Machine.execPnot f s
  | .ppack f => Sys2Proof.Machine.execPpack f s
  | .pbit f => Sys2Proof.Machine.execPbit f s
  | .sel f => Sys2Proof.Machine.execSel f s
  | .isnull f => Sys2Proof.Machine.execIsnull f s
  | .mov f => Sys2Proof.Machine.execMov f s
  | .movi f => Sys2Proof.Machine.execMovi f s
  | .movhi f => Sys2Proof.Machine.execMovhi f s
  | .null f => Sys2Proof.Machine.execNull f s
  | .get f => Sys2Proof.Machine.execGet f s
  | .mfc f => Sys2Proof.Machine.execMfc f s
  | .mtc f => Sys2Proof.Machine.execMtc f s
  | .gtid f => Sys2Proof.Machine.execGtid f s
  | .core f => Sys2Proof.Machine.execCore f s
  | .clk f => Sys2Proof.Machine.execClk f s
  | .sigchk f => Sys2Proof.Machine.execSigchk f s
  | .fadd f => Sys2Proof.Machine.execFadd f s
  | .fsub f => Sys2Proof.Machine.execFsub f s
  | .fmul f => Sys2Proof.Machine.execFmul f s
  | .fdiv f => Sys2Proof.Machine.execFdiv f s
  | .fsqrt f => Sys2Proof.Machine.execFsqrt f s
  | .fma f => Sys2Proof.Machine.execFma f s
  | .fmin f => Sys2Proof.Machine.execFmin f s
  | .fmax f => Sys2Proof.Machine.execFmax f s
  | .fneg f => Sys2Proof.Machine.execFneg f s
  | .fabs f => Sys2Proof.Machine.execFabs f s
  | .fceq f => Sys2Proof.Machine.execFceq f s
  | .fclt f => Sys2Proof.Machine.execFclt f s
  | .fcle f => Sys2Proof.Machine.execFcle f s
  | .fcun f => Sys2Proof.Machine.execFcun f s
  | .cvt f => Sys2Proof.Machine.execCvt f s
  | .bra f => Sys2Proof.Machine.execBra f s
  | .jmp f => Sys2Proof.Machine.execJmp f s
  | .call f => Sys2Proof.Machine.execCall f s
  | .ret f => Sys2Proof.Machine.execRet f s
  | .tend f => Sys2Proof.Machine.execTend f s
  | .trap f => Sys2Proof.Machine.execTrap f s
  | .mig f => Sys2Proof.Machine.execMig f s
  | .fork f => Sys2Proof.Machine.execFork f s
  | .join f => Sys2Proof.Machine.execJoin f s
  | .jwait f => Sys2Proof.Machine.execJwait f s
  | .pause f => Sys2Proof.Machine.execPause f s
  | .rngopen f => Sys2Proof.Machine.execRngopen f s
  | .rngdraw f => Sys2Proof.Machine.execRngdraw f s
  | .rngclose f => Sys2Proof.Machine.execRngclose f s
  | .vadd f => Sys2Proof.Machine.execVadd f s
  | .vsub f => Sys2Proof.Machine.execVsub f s
  | .vmul f => Sys2Proof.Machine.execVmul f s
  | .vfma f => Sys2Proof.Machine.execVfma f s
  | .vmin f => Sys2Proof.Machine.execVmin f s
  | .vmax f => Sys2Proof.Machine.execVmax f s
  | .vabs f => Sys2Proof.Machine.execVabs f s
  | .vneg f => Sys2Proof.Machine.execVneg f s
  | .vdiv f => Sys2Proof.Machine.execVdiv f s
  | .vsqrt f => Sys2Proof.Machine.execVsqrt f s
  | .vcmp f => Sys2Proof.Machine.execVcmp f s
  | .vsel f => Sys2Proof.Machine.execVsel f s
  | .vmask f => Sys2Proof.Machine.execVmask f s
  | .vtmul f => Sys2Proof.Machine.execVtmul f s
  | .vtadd f => Sys2Proof.Machine.execVtadd f s
  | .vcvt f => Sys2Proof.Machine.execVcvt f s
  | .vscale f => Sys2Proof.Machine.execVscale f s
  | .vdot f => Sys2Proof.Machine.execVdot f s
  | .vred f => Sys2Proof.Machine.execVred f s
  | .vperm f => Sys2Proof.Machine.execVperm f s
  | .vbcast f => Sys2Proof.Machine.execVbcast f s
  | .vext f => Sys2Proof.Machine.execVext f s
  | .vins f => Sys2Proof.Machine.execVins f s
  | .vtag f => Sys2Proof.Machine.execVtag f s
  | .ldb f => Sys2Proof.Machine.execLdb f s
  | .ldh f => Sys2Proof.Machine.execLdh f s
  | .ldw f => Sys2Proof.Machine.execLdw f s
  | .ldd f => Sys2Proof.Machine.execLdd f s
  | .ldbu f => Sys2Proof.Machine.execLdbu f s
  | .ldhu f => Sys2Proof.Machine.execLdhu f s
  | .ldwu f => Sys2Proof.Machine.execLdwu f s
  | .stb f => Sys2Proof.Machine.execStb f s
  | .sth f => Sys2Proof.Machine.execSth f s
  | .stw f => Sys2Proof.Machine.execStw f s
  | .std f => Sys2Proof.Machine.execStd f s
  | .vld f => Sys2Proof.Machine.execVld f s
  | .vst f => Sys2Proof.Machine.execVst f s
  | .vldg f => Sys2Proof.Machine.execVldg f s
  | .vsts f => Sys2Proof.Machine.execVsts f s
  | .ldf f => Sys2Proof.Machine.execLdf f s
  | .lde f => Sys2Proof.Machine.execLde f s
  | .stf f => Sys2Proof.Machine.execStf f s
  | .sts f => Sys2Proof.Machine.execSts f s
  | .feset f => Sys2Proof.Machine.execFeset f s
  | .feclr f => Sys2Proof.Machine.execFeclr f s
  | .feget f => Sys2Proof.Machine.execFeget f s
  | .fence f => Sys2Proof.Machine.execFence f s
  | .aadd f => Sys2Proof.Machine.execAadd f s
  | .amin f => Sys2Proof.Machine.execAmin f s
  | .amax f => Sys2Proof.Machine.execAmax f s
  | .aminu f => Sys2Proof.Machine.execAminu f s
  | .amaxu f => Sys2Proof.Machine.execAmaxu f s
  | .aand f => Sys2Proof.Machine.execAand f s
  | .aor f => Sys2Proof.Machine.execAor f s
  | .axor f => Sys2Proof.Machine.execAxor f s
  | .axch f => Sys2Proof.Machine.execAxch f s
  | .acas f => Sys2Proof.Machine.execAcas f s
  | .afadd f => Sys2Proof.Machine.execAfadd f s
  | .pfill f => Sys2Proof.Machine.execPfill f s
  | .pgstat f => Sys2Proof.Machine.execPgstat f s
  | .tlbinv f => Sys2Proof.Machine.execTlbinv f s
  | .hwait f => Sys2Proof.Machine.execHwait f s
  | .htest f => Sys2Proof.Machine.execHtest f s
  | .hcancel f => Sys2Proof.Machine.execHcancel f s
  | .cpy f => Sys2Proof.Machine.execCpy f s
  | .cpyx f => Sys2Proof.Machine.execCpyx f s
  | .cpys f => Sys2Proof.Machine.execCpys f s
  | .tmul f => Sys2Proof.Machine.execTmul f s
  | .tmv f => Sys2Proof.Machine.execTmv f s
  | .tadd f => Sys2Proof.Machine.execTadd f s
  | .tasm f => Sys2Proof.Machine.execTasm f s
  | .ttype f => Sys2Proof.Machine.execTtype f s
  | .tfree f => Sys2Proof.Machine.execTfree f s
  | .tcopy f => Sys2Proof.Machine.execTcopy f s
  | .ttrans f => Sys2Proof.Machine.execTtrans f s
  | .tsolve f => Sys2Proof.Machine.execTsolve f s
  | .tchol f => Sys2Proof.Machine.execTchol f s
  | .tresume f => Sys2Proof.Machine.execTresume f s
  | .dvar f => Sys2Proof.Machine.execDvar f s
  | .dapp f => Sys2Proof.Machine.execDapp f s
  | .dnot f => Sys2Proof.Machine.execDnot f s
  | .dite f => Sys2Proof.Machine.execDite f s
  | .dres f => Sys2Proof.Machine.execDres f s
  | .dexq f => Sys2Proof.Machine.execDexq f s
  | .dcnt f => Sys2Proof.Machine.execDcnt f s
  | .dref f => Sys2Proof.Machine.execDref f s
  | .dunref f => Sys2Proof.Machine.execDunref f s
  | .dgc f => Sys2Proof.Machine.execDgc f s
  | .dsize f => Sys2Proof.Machine.execDsize f s
  | .dresume f => Sys2Proof.Machine.execDresume f s
  | .rsinit f => Sys2Proof.Machine.execRsinit f s
  | .rsbegin f => Sys2Proof.Machine.execRsbegin f s
  | .rsnext f => Sys2Proof.Machine.execRsnext f s
  | .rsread f => Sys2Proof.Machine.execRsread f s
  | .rsput f => Sys2Proof.Machine.execRsput f s
  | .rsstat f => Sys2Proof.Machine.execRsstat f s
  | .rfe f => Sys2Proof.Machine.execRfe f s
  | .bkpt f => Sys2Proof.Machine.execBkpt f s
  | .halt f => Sys2Proof.Machine.execHalt f s
  | .blockFetch k c => Sys2Proof.Machine.execBlockFetch k c s
  | .codeCacheFill k c => Sys2Proof.Machine.execCodeCacheFill k c s
  | .resultDelivery k c => Sys2Proof.Machine.execResultDelivery k c s
  | .blockCommit k c => Sys2Proof.Machine.execBlockCommit k c s
  | .trapEntry k c => Sys2Proof.Machine.execTrapEntry k c s
  | .taskTerminate k c => Sys2Proof.Machine.execTaskTerminate k c s
  | .taskEnd k c => Sys2Proof.Machine.execTaskEnd k c s
  | .waitRetry k c => Sys2Proof.Machine.execWaitRetry k c s
  | .spinExpiry k c => Sys2Proof.Machine.execSpinExpiry k c s
  | .parkAttempt k c => Sys2Proof.Machine.execParkAttempt k c s
  | .parkWriteout k c => Sys2Proof.Machine.execParkWriteout k c s
  | .parkSlotRetryExpiry k c => Sys2Proof.Machine.execParkSlotRetryExpiry k c s
  | .wakeDelivery k => Sys2Proof.Machine.execWakeDelivery k s
  | .wlimitExpiry k pslot => Sys2Proof.Machine.execWlimitExpiry k pslot s
  | .waitCancel k => Sys2Proof.Machine.execWaitCancel k s
  | .findWork k c => Sys2Proof.Machine.execFindWork k c s
  | .stealAttempt k c => Sys2Proof.Machine.execStealAttempt k c s
  | .stealBackoffExpiry k c => Sys2Proof.Machine.execStealBackoffExpiry k c s
  | .rootPlacement launch => Sys2Proof.Machine.execRootPlacement launch s
  | .migrationArrival k => Sys2Proof.Machine.execMigrationArrival k s
  | .migrationNack k c => Sys2Proof.Machine.execMigrationNack k c s
  | .migrationRetryExpiry k c => Sys2Proof.Machine.execMigrationRetryExpiry k c s
  | .replyArrival k c => Sys2Proof.Machine.execReplyArrival k c s
  | .pauseExpiry k c => Sys2Proof.Machine.execPauseExpiry k c s
  | .poolScrub k word => Sys2Proof.Machine.execPoolScrub k word s
  | .sendNonRelaxed k c => Sys2Proof.Machine.execSendNonRelaxed k c s
  | .sendRelaxed k c nth => Sys2Proof.Machine.execSendRelaxed k c nth s
  | .arrive source home => Sys2Proof.Machine.execArrive source home s
  | .perform home => Sys2Proof.Machine.execPerform home s
  | .replay cluster nth => Sys2Proof.Machine.execReplay cluster nth s
  | .acknowledge k c => Sys2Proof.Machine.execAcknowledge k c s
  | .faultRecordPost cluster => Sys2Proof.Machine.execFaultRecordPost cluster s
  | .faultPostRetryExpiry k c => Sys2Proof.Machine.execFaultPostRetryExpiry k c s
  | .engineJobResolve cluster slot => Sys2Proof.Machine.execEngineJobResolve cluster slot s
  | .mapExecutable cluster => Sys2Proof.Machine.execMapExecutable cluster s
  | .withdrawExecutable cluster => Sys2Proof.Machine.execWithdrawExecutable cluster s
  | .pfillRelaxedWalk k c => Sys2Proof.Machine.execPfillRelaxedWalk k c s
  | .queueReservationExpiry cluster slot => Sys2Proof.Machine.execQueueReservationExpiry cluster slot s
  | .tmeStep cluster => Sys2Proof.Machine.execTmeStep cluster s
  | .ddeStep cluster => Sys2Proof.Machine.execDdeStep cluster s
  | .copyFrame cluster => Sys2Proof.Machine.execCopyFrame cluster s
  | .cpyxChunk cluster chunk => Sys2Proof.Machine.execCpyxChunk cluster chunk s
  | .cpyxFinish cluster => Sys2Proof.Machine.execCpyxFinish cluster s
  | .eclipseRaise part src => Sys2Proof.Machine.execEclipseRaise part src s
  | .stopAreaWrite part => Sys2Proof.Machine.execStopAreaWrite part s
  | .preemptGraceExpiry part => Sys2Proof.Machine.execPreemptGraceExpiry part s
  | .preemptAbortExpiry part => Sys2Proof.Machine.execPreemptAbortExpiry part s
  | .saveRecordWrite part => Sys2Proof.Machine.execSaveRecordWrite part s
  | .saveHeaderWrite part => Sys2Proof.Machine.execSaveHeaderWrite part s
  | .containment umbra => Sys2Proof.Machine.execContainment umbra s
  | .umbraFence umbra => Sys2Proof.Machine.execUmbraFence umbra s
  | .umbraReset umbra => Sys2Proof.Machine.execUmbraReset umbra s
  | .containmentNotice umbra => Sys2Proof.Machine.execContainmentNotice umbra s
  | .nackReceived k c => Sys2Proof.Machine.execNackReceived k c s
  | .doorbell port queue v => Sys2Proof.Machine.execDoorbell port queue v s
  | .peerDoorbell link queue v => Sys2Proof.Machine.execPeerDoorbell link queue v s
  | .peerWrite link ia data => Sys2Proof.Machine.execPeerWrite link ia data s
  | .launchEntry queue => Sys2Proof.Machine.execLaunchEntry queue s
  | .launchCompletion launch => Sys2Proof.Machine.execLaunchCompletion launch s
  | .msixUnmask port vec => Sys2Proof.Machine.execMsixUnmask port vec s
  | .statRead port => Sys2Proof.Machine.execStatRead port s
  | .eventRead port => Sys2Proof.Machine.execEventRead port s
  | .mailboxWrite port o v => Sys2Proof.Machine.execMailboxWrite port o v s
  | .createPartition path => Sys2Proof.Machine.execCreatePartition path s
  | .destroyPartition path => Sys2Proof.Machine.execDestroyPartition path s
  | .setQueue path => Sys2Proof.Machine.execSetQueue path s
  | .preemptPartition path => Sys2Proof.Machine.execPreemptPartition path s
  | .resumePartition path => Sys2Proof.Machine.execResumePartition path s
  | .setTimeSlotTables path => Sys2Proof.Machine.execSetTimeSlotTables path s
  | .setUmbrae path => Sys2Proof.Machine.execSetUmbrae path s
  | .terminateTask path => Sys2Proof.Machine.execTerminateTask path s
  | .readStartRecord path => Sys2Proof.Machine.execReadStartRecord path s
  | .attestationReport path => Sys2Proof.Machine.execAttestationReport path s
  | .raiseEclipseLine path => Sys2Proof.Machine.execRaiseEclipseLine path s
  | .releaseEclipseLine path => Sys2Proof.Machine.execReleaseEclipseLine path s
  | .attach path => Sys2Proof.Machine.execAttach path s
  | .detach path => Sys2Proof.Machine.execDetach path s
  | .setBreakpoint path => Sys2Proof.Machine.execSetBreakpoint path s
  | .releaseContext path => Sys2Proof.Machine.execReleaseContext path s
  | .releasePartition path => Sys2Proof.Machine.execReleasePartition path s
  | .readContext path => Sys2Proof.Machine.execReadContext path s
  | .writeContext path => Sys2Proof.Machine.execWriteContext path s
  | .readJobQueue path => Sys2Proof.Machine.execReadJobQueue path s
  | .readWakeTable path => Sys2Proof.Machine.execReadWakeTable path s
  | .readCopyTrace path => Sys2Proof.Machine.execReadCopyTrace path s
  | .timeSlotFrame => Sys2Proof.Machine.execTimeSlotFrame s
  | .moduleStart outcomes => Sys2Proof.Machine.execModuleStart outcomes s
  | .dieAbove95 die => Sys2Proof.Machine.execDieAbove95 die s
  | .dieBackAt90 => Sys2Proof.Machine.execDieBackAt90 s
  | .dieAbove105 die => Sys2Proof.Machine.execDieAbove105 die s
  | .overtempPowerRemoval => Sys2Proof.Machine.execOvertempPowerRemoval s
  | .clock => Sys2Proof.Machine.execClock s
  | .unknownOperation path op => Sys2Proof.Machine.execUnknownOperation path op s

end Sys2Proof.Machine
end

