-- ==== Sys2Proof/Machine/Sched.lean ====
section
/-! DEFINITION. Turns: a context's issue slot, or a device step (R64, R67, R190); what moves next when the state names
no turn (log 1); and the placing of one word where the next slot issues it. -/

namespace Sys2Proof.Machine

/-! ### Turns -/

/-- The slot of a context (R64, R67): tokens land, the slot is used, and the instruction chosen runs. -/
def runSlot (k c : Nat) (s : State) : Host.Outcome State Fault Refusal :=
  if k < 4608 && c < 16 && slotOpen (s.ctx k c) c s.clk.toNat then
    let t := applyAll (slotChanges s k c) s
    match slotInstr s k c with
    | some (idx, i) => exec i { t with cur := { core := k, ctx := c, idx := idx } }
    | none => .next t
  else .next s

/-- A device step; a form acts only in its context's slot. -/
def runEvent (i : Instr) (s : State) : Host.Outcome State Fault Refusal :=
  if i.info.isNone && i.wellFormed then exec i s else .next s

def runTurn (t : Turn) (s : State) : Host.Outcome State Fault Refusal :=
  match t with
  | .slot k c => runSlot k c s
  | .event i => runEvent i s

/-! ### The turn when none is named (log 1) -/

/-- A device step as a function of the state. -/
abbrev DeviceStep := State → Host.Outcome State Fault Refusal

/-- Steps of a context. -/
def ctxSteps (k c : Nat) : List DeviceStep :=
  [execResultDelivery k c, execPauseExpiry k c, execTrapEntry k c, execBlockCommit k c, execTaskTerminate k c, execTaskEnd k c,
   execPfillRelaxedWalk k c, execSendNonRelaxed k c, execSendRelaxed k c 0, execSpinExpiry k c, execParkAttempt k c,
   execParkSlotRetryExpiry k c, execParkWriteout k c, execMigrationRetryExpiry k c, execFaultPostRetryExpiry k c, execWaitRetry k c,
   execCodeCacheFill k c, execBlockFetch k c]

/-- Messages that can be taken. -/
def netSteps (n : Net) : List DeviceStep :=
  (n.replies.map fun r => execReplyArrival r.core r.ctx) ++ (n.performed.map fun r => execAcknowledge r.core r.ctx) ++
    (n.homes.map fun x => execPerform x.1) ++ (n.channels.map fun x => execArrive x.1 x.2.1) ++
    (n.umbraNacks.map fun x => execNackReceived x.1 x.2.1) ++ (n.wakes.map fun w => execWakeDelivery w.core) ++
    (n.cancels.map fun x => execWaitCancel x.home) ++ (n.migs.map fun x => execMigrationArrival x.1) ++
    (n.migNacks.map fun x => execMigrationNack x.1 x.2.1)

/-- Steps of a cluster. -/
def clusterSteps (cl : Nat) (c : Cluster) : List DeviceStep :=
  [execFaultRecordPost cl, execTmeStep cl, execDdeStep cl, execCopyFrame cl, execCpyxFinish cl, execMapExecutable cl,
   execWithdrawExecutable cl] ++
    ((List.range 16).map fun n => execCpyxChunk cl n) ++ ((List.range c.replay.length).map fun n => execReplay cl n) ++
    (c.slots.flatMap fun x => [execEngineJobResolve cl x.1, execQueueReservationExpiry cl x.1])

/-- Steps of a core: work for its FREE contexts, and its parks. -/
def coreSteps (k : Nat) (c : Core) : List DeviceStep :=
  (if c.deque.isEmpty && c.arrivals.isEmpty && c.requeue.isEmpty then []
   else (List.range 16).map fun i => execFindWork k i) ++ (c.pslots.map fun x => execWlimitExpiry k x.1)

/-- Steal attempts, where some deque holds a task. -/
def stealSteps (s : State) : List DeviceStep :=
  if s.cores.any fun x => !x.2.deque.isEmpty then
    s.cores.flatMap fun x => (List.range 16).flatMap fun i => [execStealBackoffExpiry x.1 i, execStealAttempt x.1 i]
  else []

/-- Steps of a partition. -/
def partSteps (p : Nat) (x : Partition) : List DeviceStep :=
  (x.raises.map fun r => execEclipseRaise p r.1) ++
    [execStopAreaWrite p, execPreemptGraceExpiry p, execPreemptAbortExpiry p, execSaveRecordWrite p, execSaveHeaderWrite p]

/-- The steps that serve a request of a path. -/
def mgmtSteps (p : ReqPath) (op : BitVec 8) : List DeviceStep :=
  [execCreatePartition p, execDestroyPartition p, execSetQueue p, execPreemptPartition p, execResumePartition p, execSetTimeSlotTables p,
   execSetUmbrae p, execTerminateTask p, execReadStartRecord p, execAttestationReport p, execRaiseEclipseLine p, execReleaseEclipseLine p,
   execAttach p, execDetach p, execSetBreakpoint p, execReleaseContext p, execReleasePartition p, execReadContext p, execWriteContext p,
   execReadJobQueue p, execReadWakeTable p, execReadCopyTrace p, execUnknownOperation p op]

/-- Device steps that may be enabled, in the order the model prefers them. -/
def deviceSteps (s : State) : List DeviceStep :=
  (s.ctxs.flatMap fun x => if x.2.status == .free && x.2.pfills.isEmpty then [] else ctxSteps (x.1 / 16) (x.1 % 16)) ++
    netSteps s.net ++ (s.clusters.flatMap fun x => clusterSteps x.1 x.2) ++
    (s.cores.flatMap fun x => coreSteps x.1 x.2) ++ stealSteps s ++ (s.parts.flatMap fun x => partSteps x.1 x.2) ++
    (s.mgmt.umbrae.flatMap fun u => if u.stage == .ok then []
      else [execContainment u.id, execUmbraFence u.id, execUmbraReset u.id, execContainmentNotice u.id]) ++
    (s.launches.flatMap fun x => [execRootPlacement x.1, execLaunchCompletion x.1]) ++
    (s.mgmt.queues.map fun x => execLaunchEntry x.1) ++ (s.mgmt.reqs.flatMap fun r => mgmtSteps r.path r.op) ++
    (s.clusters.flatMap fun x => match ringOp s x.1 with
      | some op => mgmtSteps (.ring x.1) (BitVec.ofNat 8 op)
      | none => [])

/-- The state after the first of these steps that changes something. -/
def firstChange (s : State) : List DeviceStep → Option State
  | [] => none
  | f :: t =>
    match f s with
    | .next u => if u == s then firstChange s t else some u
    | _ => firstChange s t

/-- What happens when the state names no turn: the start of the module, a device step that changes something, a slot
that is owed, the clock. -/
def defaultStep (s : State) : Host.Outcome State Fault Refusal :=
  if s.mgmt.start == .off || s.mgmt.start == .unpowered then execModuleStart [] s
  else match firstChange s (deviceSteps s) with
    | some t => .next t
    | none =>
      match s.ctxs.find? fun x => s.slotOwed (x.1 / 16) (x.1 % 16) with
      | some x => runSlot (x.1 / 16) (x.1 % 16) s
      | none => if s.frameDue then execTimeSlotFrame s else execClock s

/-! ### One word where the next slot issues it -/

/-- A token for a data slot of a form: null nowhere, a vector where the form takes one. -/
def placedToken (k : Option Bool) : Option Token :=
  k.map fun v => if v then .vector 0 1 0 else .scalar 0

/-- A window of one instruction with every slot it uses filled and its guard passed; a sync block when the form is
irrevocable (R39). -/
def placedWindow (w : Code) : Window :=
  let info := w.info
  let slot := fun (g : FormInfo → Option Bool) => info.bind fun f => placedToken (g f)
  let sync := (info.map (·.irr)).getD false
  { header := BitVec.ofNat 96 (0xB7 * 2 ^ 88 + (if sync then 2 ^ 23 else 0))
    insts := [{ word := w, a := slot (·.a), b := slot (·.b), c := slot (·.c),
                p := some (.scalar (if w.gm == .onFalse then 0 else 1)) }] }

/-- The word in the window of the context of core 0 whose slot this clock is, its turn next and its NI send queue empty, so
that the slot is not stalled (R66). -/
def placeWord (s : State) (w : Code) : State :=
  let c := s.clk.toNat % 16
  let x := s.ctx 0 c
  let y := { x with status := .active, phase := .run, win := placedWindow w, accs := [], wait := none, busy := 0,
                    lastSlot := none, lost := none }
  let mine := fun (m : Source × Home × Req) => m.1 == .ni 0 && m.2.2.core == 0 && m.2.2.ctx == c
  { s with ctxs := sset (ctxKey 0 c) y s.ctxs, sched := [.slot 0 c]
           net := { s.net with channels := s.net.channels.filter fun m => !mine m } }

end Sys2Proof.Machine
end

