-- ==== Sys2Proof/Machine/Step.lean ====
section
/-! DEFINITION. One step: the turn the state names, or what happens when it names none. -/

namespace Sys2Proof.Machine

/-- One step of the machine. -/
def step (s : State) : Host.Outcome State Fault Refusal :=
  match s.sched with
  | t :: rest => runTurn t { s with sched := rest }
  | [] => defaultStep s

/-- `s` with the instruction whose bits are `w` where the next step issues it. -/
def State.withFetchWord (s : State) (nbits w : Nat) : State := placeWord s (BitVec.ofNat 96 (w % 2 ^ nbits))

end Sys2Proof.Machine
end

