-- ==== Sys2Proof/Safety.lean ====
section
/-! DEFINITION. The vocabulary of the claims: when a form of a block fires (R33, R34), the state after it has delivered a
token or entered an access, and the invariant that every step keeps. -/

namespace Sys2Proof.Machine

/-! ### A form that fires -/

/-- The guard of a form lets it act (R34): GM 00, or a p token that is not null whose bit 0 is 1 (GM 01) or 0 (GM 10). -/
def GuardOpen (gm : Guard) (i : Inst) : Prop :=
  gm = .none ∨ ∃ p, i.p = some p ∧ p ≠ .null ∧ ((gm = .onTrue ∧ p.pred = true) ∨ (gm = .onFalse ∧ p.pred = false))

/-- Instruction `i` stands where the state's turn points, is not issued, its guard is open, and each slot it uses holds a
token that is not null (R33, R34). -/
def Firing (s : State) (gm : Guard) (slots : List Slot) (i : Inst) : Prop :=
  s.curCtx.win.insts[s.cur.idx]? = some i ∧ i.issued = false ∧ GuardOpen gm i ∧
    ∀ x ∈ slots, ∃ t, i.slot x = some t ∧ t ≠ .null

/-- The state with the current context's window changed and nothing else. -/
def State.withWin (s : State) (f : Window → Window) : State :=
  (Eff.ctx s.cur.core s.cur.ctx (s.curCtx.onWin f)).apply s

/-- The state after the current form has issued and delivered a token to its targets, `lat` slots from now (R33, R67). -/
def State.emitted (s : State) (ts : List Target) (tok : Token) (lat : Nat) : State :=
  s.withWin fun w => (w.issue s.cur.idx).emit s.cur.idx ts tok (dueAt s lat)

/-- The outcome of a form that delivers one token, `lat` slots from now, and does nothing else. -/
def Emits (s : State) (o : Host.Outcome State Fault Refusal) (ts : List Target) (tok : Token) (lat : Nat := 1) : Prop :=
  o = .next (s.emitted ts tok lat)

/-- The bits of an operand that the width WD names. -/
def Inst.low (i : Inst) (x : Slot) (n : Nat) : BitVec n := (i.tok x).word.setWidth n

/-- The sign-extended immediate, cut to a width (R107). -/
def immLow (f : FmtA) (n : Nat) : BitVec n := BitVec.setWidth n (BitVec.signExtend 64 f.z)

/-- A result extended as S or as U (R107). -/
def signed {n : Nat} (v : BitVec n) : Token := .scalar (v.signExtend 64)
def unsigned {n : Nat} (v : BitVec n) : Token := .scalar (v.setWidth 64)

/-- The outcome is a next state of which `P` holds. -/
def Reaches (o : Host.Outcome State Fault Refusal) (P : State → Prop) : Prop := ∃ t, o = .next t ∧ P t

/-! ### Traps -/

/-- The executing block can abort and enter its task's handler at once (R71, R330): it is in no handler, TVEC and TSAVE
are good, and neither a load of the block nor a store of the context is out once the block's own accesses are dropped. -/
def TrapReady (s : State) : Prop :=
  let c := s.curCtx
  c.regs.hf = false ∧ c.regs.tvec ≠ 0 ∧ tsaveOk c.regs.tsave = true ∧
    Ctx.loadsOut { c with accs := dropBlock c } = false ∧ Ctx.storesOut { c with accs := dropBlock c } = false

/-- The current task has entered its handler (R330): TCAUSE, TADDR, TBLK and TIDX hold what happened, the handler flag is
set, the handler's first block is fetched 8 slots from now, and the save area at TSAVE holds the image of Table 2, where the
home check, off here, posts no record over it. Every other register is as it was. -/
def TrapTaken (s : State) (cause : BitVec 8) (addr : Word) (t : State) : Prop :=
  let c := s.curCtx
  let d := t.ctx s.cur.core s.cur.ctx
  let r := { c.regs with tcause := cause, taddr := addr, tblk := c.win.addr, tidx := BitVec.ofNat 7 s.cur.idx }
  d.regs = { r with hf := true } ∧ d.phase = .fetch c.regs.tvec (s.clk.toNat + 128) ∧ d.win = {} ∧ d.status = c.status ∧
    ((s.core s.cur.core).regs.wpctl.getLsbD 5 = false →
      Mem.read t.mem (poolKey s.cur.core c.regs.tsave.toNat) 576 = saveImage r c.task.gtid c.win.resume)

/-! ### Registers -/

/-- The bits a control register keeps (Table 2 of R101; Table 5 of R168; Table 2 of R366; R371). -/
def keptBits (n : Nat) : Word :=
  if n = 0x00 then 0x7 else if n = 0x01 then 0xFFFF else if n = 0x02 then 0xFFFFFFFF else if n = 0x09 then 0x7
  else if n = 0x20 then 0xFFFFFF else if 0x21 ≤ n ∧ n ≤ 0x28 then ~~~(0x1C00007 : Word)
  else if n = 0x29 then 0xFFFFFFFFFFFF else if 0x30 ≤ n ∧ n ≤ 0x33 then 0x1FFF
  else if 0x34 ≤ n ∧ n ≤ 0x37 then 0xFFFFFFFFFFFF else if n = 0x3C then ~~~(0x3F : Word) else if n = 0x3E then 0xFFFFFF
  else if 0x40 ≤ n ∧ n ≤ 0x47 then 0x1FF else if 0x48 ≤ n ∧ n ≤ 0x4F then 0xFFFFFFFFFFFF
  else ~~~(0 : Word)

/-! ### Exact values of floating-point patterns -/

/-- ±m·2^e as a rational number. -/
def ratOf (neg : Bool) (m : Nat) (e : Int) : Rat :=
  let a : Rat := if 0 ≤ e then (m : Rat) * (2 ^ e.toNat : Nat) else (m : Rat) / (2 ^ (-e).toNat : Nat)
  if neg then -a else a

/-- The value of a finite decoded pattern. -/
def FVal.rat? : FVal → Option Rat
  | .fin s m e => some (ratOf s m e)
  | _ => none

/-- The order of FMIN and FMAX among values that are no NaNs: −0 is below +0 (R137). -/
def FVal.below : FVal → FVal → Prop
  | .inf s, .inf t => s = true ∧ t = false
  | .inf s, .fin _ _ _ => s = true
  | .fin _ _ _, .inf t => t = false
  | .fin s m e, .fin t n k => ratOf s m e < ratOf t n k ∨ (m = 0 ∧ n = 0 ∧ s = true ∧ t = false)
  | _, _ => False

/-- The pattern v is the NaN that survives of a list of operand patterns of a format (R132): of those that are NaNs the one
with the smallest payload, on a tie the earliest, its quiet bit set. -/
def Survives (g : FloatFmt) (l : List Nat) (v : Nat) : Prop :=
  ∃ (k p : Nat), l[k]? = some p ∧ (g.decode p).isNan = true ∧ v = p ||| 2 ^ (g.fb - 1) ∧
    ∀ (j q : Nat), l[j]? = some q → (g.decode q).isNan = true →
      p % 2 ^ (g.fb - 1) < q % 2 ^ (g.fb - 1) ∨ (p % 2 ^ (g.fb - 1) = q % 2 ^ (g.fb - 1) ∧ k ≤ j)

/-- The six floating-point formats (R122). -/
def floatFmts : List FloatFmt := [f64, f32, bf16, f16, e4m3, e5m2]

/-- Bits of a pattern of a format. -/
def FloatFmt.width (f : FloatFmt) : Nat := 1 + f.eb + f.fb

/-! ### Vectors -/

/-- Lane k of an operand's bits at width w (R142). -/
def Inst.lane (i : Inst) (x : Slot) (w k : Nat) : BitVec w := (i.tok x).vbits.extractLsb' (w * k) w

/-- The outcome of a form that delivers a vector of a tag: lane k is null where `dead` says so and else holds `val k`
(R142, R144). -/
def EmitsLanes (s : State) (o : Host.Outcome State Fault Refusal) (ts : List Target) (tag : BitVec 4) (lat w : Nat)
    (dead : Nat → Bool) (val : Nat → BitVec w) : Prop :=
  ∃ bits nulls, Emits s o ts (.vector bits tag nulls) lat ∧
    ∀ k, k < 256 / w → nulls.getLsbD k = dead k ∧ (dead k = false → bits.extractLsb' (w * k) w = val k)

/-! ### Exits -/

/-- The state after the current exit form has fired (R69, R77): its link has gone to the targets, and it is the block's exit
with the slot value given. -/
def State.exited (s : State) (ts : List Target) (link : Token) (a : Word) : State :=
  s.withWin fun w =>
    let x := (w.issue s.cur.idx).emit s.cur.idx ts link (dueAt s 1)
    { x with exits := x.exits ++ [{ idx := s.cur.idx, a := a }] }

/-! ### Accesses -/

/-- Where an access to a core pool goes once it has passed R171: the own pool, where a region of the LPU admits it (R168),
or the pool of a core of the partition; a store there only through a remote window that admits it (R169). -/
def PoolPlace (s : State) (a : Word) (size : Nat) (need : Rights) (store : Bool) (p : Place) : Prop :=
  let c := s.curCtx
  (∃ off, classify a size = .loc off ∧ lpuOk c.win.snap.core.lprot s.cur.ctx off size need = true ∧
    p = { home := .pool s.cur.core, addr := poolKey s.cur.core off }) ∨
  (∃ id off k, classify a size = .core id off ∧ s.phys (s.partOf s.cur.core) id = some k ∧
    let o := windowOffset (s.core k).windows (asidOf c.win.snap.core.asid) off size need
    (store = true → o.isSome = true) ∧ p = { home := .pool k, addr := (o.map (poolKey k)).getD noKey, core := true })

/-- The own watchpoint of the core is off for the block (EN of WPCTL, R371). -/
def Unwatched (s : State) : Prop := s.curCtx.win.snap.core.wpctl.getLsbD 4 = false

/-- An access to this address does not move the task (R89): HN[78] is 0 or ignored, or the address is not in the CORE
space. -/
def Stays (s : State) (a : Word) (mig : Bool) : Prop :=
  mig = false ∨ s.curCtx.win.skip.mig = true ∨ ∀ id off, classify a 1 ≠ .core id off

/-- The clock before which a pool form's token does not arrive, when its home is the own pool (R67). -/
def dueOf (s : State) (p : Place) (slots : Nat) : Nat :=
  if p.home == .pool s.cur.core && !p.core then s.clk.toNat + 16 * slots else 0

/-- The state after the current form has issued and entered accesses, each in its place in access order (R191, R193); a
store form has then fired (R69). -/
def State.entered (s : State) (accs : List Access) (fired : Bool := false) : State :=
  let c := s.curCtx
  let w := c.win.issue s.cur.idx
  let l := accs.foldl (fun l a => insertAcc (c.stamp s.cur.ctx a) l) c.accs
  (Eff.ctx s.cur.core s.cur.ctx
    { c with accs := l, win := if fired then w.emit s.cur.idx [] .null (dueAt s 1) else w }).apply s

/-! ### Engine commands -/

/-- The engine of a form by its opcode (R227): 0 TME, 1 DDE, 2 copy. -/
def engineOf (op : Nat) : Nat := if op = 0x31 then 0 else if op = 0x32 then 1 else 2

/-- The window once the descriptor of a command has come in (R231). -/
def Window.described (w : Window) (idx : Nat) (desc : List Byte) : Window :=
  { w with insts := lmod w.insts idx fun i => { i with desc := some desc } }

/-- The window once the own check has examined a command of it (R372). -/
def Window.looked (w : Window) (idx : Nat) : Window :=
  { w with insts := lmod w.insts idx fun i => { i with seen := true } }

/-- The state in which a reply's access is over: it is no longer among its context's, the reply is taken. -/
def State.replied (s : State) (p : Reply) (f : Window → Window) : State :=
  let c := s.ctx p.core p.ctx
  { (Eff.ctx p.core p.ctx ({ c with accs := c.accs.filter fun a => a.key != p.acc.key }.onWin f)).apply s with
    net := { s.net with replies := s.net.replies.erase p } }

/-- A command of the current context whose descriptor has been read passes R231: its completion word stands aligned at an
offset of pool k, where the context may write and synchronise; no fence answers it; no watchpoint is set. -/
structure CommandReady (s : State) (desc : List Byte) (k woff : Nat) : Prop where
  word : ∃ p, PoolPlace s (fieldWord desc 0) 8 { w := true, s := true } true p ∧ p.home = .pool k ∧ p.addr = poolKey k woff
  aligned : (fieldWord desc 0).toNat % 8 = 0
  reached : s.nacks (s.cur.core / 8) k = false
  unwatched : Unwatched s ∧ (s.core k).regs.wpctl.getLsbD 5 = false

/-- The queue takes no other command ahead of this one in this clock (R227, R232). -/
def InTurn (s : State) (at_ : Cur) : Prop :=
  ((Eff.ctx at_.core at_.ctx ((s.ctx at_.core at_.ctx).onWin (·.looked at_.idx))).apply s).outranked at_.core = false

/-- A command is accepted (R227 to R232): the free slot takes the job with its generation advanced, last in the service
order; the completion word becomes 0 and EMPTY; the handle goes to the targets. -/
def Accepted (s : State) (at_ : Cur) (i : Inst) (ts : List Target) (desc : List Byte) (k woff slot : Nat) (t : State) :
    Prop :=
  let cl := at_.core / 8
  let c := s.ctx at_.core at_.ctx
  let d := t.ctx at_.core at_.ctx
  let q := s.slotOf cl slot
  let op := i.word.op
  t.slotOf cl slot = { q with
    gen := q.gen + 1
    job := some {
      engine := engineOf op, desc := desc, gtid := c.task.gtid, core := at_.core, ctx := at_.ctx,
      asid := c.win.snap.core.asid, part := s.partOf at_.core, form := (op, i.word.sub),
      args := if op = 0x32 then [(i.tok .b).word, (i.tok .c).word, BitVec.ofNat 64 (i.word.z.toNat / 2 ^ 20)] else [],
      w := (k, woff), clk := s.clk.toNat }
    res := none } ∧
  (t.cluster cl).order = (s.cluster cl).order ++ [slot] ∧
  Mem.read64 t.mem (poolKey k woff) = 0 ∧ (t.syncOf (poolKey k woff / 8)).getLsbD 0 = false ∧
  d.wait = none ∧ d.regs = c.regs ∧
  d.win = { (c.win.looked at_.idx) with committed := true }.emit at_.idx ts
    (.scalar (BitVec.ofNat 64 (2 ^ 14 * engineOf op + 256 * slot + (q.gen + 1).toNat))) (dueAt s 1)

/-- What a command does once its descriptor has been read, from the state s, as the outcome `out` of a step (R231). Its
completion word in no pool of the partition takes SPACE (0x04), not aligned ALIGN (0x03), in the own pool where no region
admits it PROT (0x02), each with its address; a CPYX that names another ASID or root without supervisor level takes PRIV
(0x11; R240). A command that passes waits for a slot while the queue is full (R74), is refused when another is taken first
in this clock and may issue again (R232), and is accepted else. -/
def CommandGoes (out : Host.Outcome State Fault Refusal) (s : State) (at_ : Cur) (i : Inst) (ts : List Target)
    (desc : List Byte) : Prop :=
  let v := { s with cur := at_ }
  let c := v.curCtx
  let w := fieldWord desc 0
  let unit := fun (t : State) => t.clusters = s.clusters ∧ t.mem = s.mem ∧ t.sync = s.sync ∧ t.cores = s.cores
  let barred := i.word.op = 0x30 ∧ i.word.sub = 4 ∧ cpyxPriv c desc = true
  (TrapReady v →
    ((classify w 8 = .bad ∨ (∃ va, classify w 8 = .far va) ∨
        ∃ id off, classify w 8 = .core id off ∧ s.phys (s.partOf at_.core) id = none) → Reaches out (TrapTaken v 0x04 w)) ∧
    ((∃ off, classify w 8 = .loc off) → w.toNat % 8 ≠ 0 → Reaches out (TrapTaken v 0x03 w)) ∧
    (∀ off, classify w 8 = .loc off → w.toNat % 8 = 0 →
      lpuOk c.win.snap.core.lprot at_.ctx off 8 { w := true, s := true } = false → Reaches out (TrapTaken v 0x02 w))) ∧
  ∀ k woff, CommandReady v desc k woff →
    (barred → TrapReady v → Reaches out (TrapTaken v 0x11 0)) ∧
    (¬barred → c.wait = none → freeSlot (s.cluster (at_.core / 8)) c.task.gtid = none → Reaches out fun t =>
      let d := t.ctx at_.core at_.ctx
      unit t ∧ (∃ x, d.wait = some x ∧ x.on = .queue ∧ x.idx = at_.idx ∧ x.start = s.clk.toNat ∧ x.out = false) ∧
        d.regs = c.regs ∧ d.win = c.win.looked at_.idx) ∧
    ∀ slot, ¬barred → freeSlot (s.cluster (at_.core / 8)) c.task.gtid = some slot →
      (¬InTurn s at_ → c.wait = none → Reaches out fun t =>
        let d := t.ctx at_.core at_.ctx
        unit t ∧ d.wait = none ∧ d.regs = c.regs ∧
          ∃ x, d.win.insts[at_.idx]? = some x ∧ x.issued = false ∧ x.desc = some desc ∧ x.fired = i.fired) ∧
      (InTurn s at_ → Reaches out (Accepted s at_ i ts desc k woff slot))

/-- The end of a job is on its way (R199, R229): one request that writes its completion word goes out from its engine, and the
job holds its slot until that is performed. -/
def WordSent (s : State) (cl slot : Nat) (j : Job) (v : Word) (status : Nat) (t : State) : Prop :=
  (∃ r : Req, t.net.channels = s.net.channels ++ [(.engine cl j.engine, .pool j.w.1, r)] ∧ r.acc.op = .sts v ∧
    r.acc.addr = poolKey j.w.1 j.w.2 ∧ r.acc.size = 8 ∧ ∃ e, r.eng = some e ∧ e.kind = .word status true ∧ e.cl = cl ∧
      e.slot = slot ∧ e.engine = j.engine ∧ e.gen = (s.slotOf cl slot).gen) ∧
  ∃ i, t.jobOf cl slot = some i ∧ i.st = .ended ∧ i.out = j.out + 1

/-- A request carries a byte to a memory key. -/
def Carries (r : Req) (key : Nat) (b : Byte) : Prop :=
  ∃ d, r.acc.op = .store d ∧ r.acc.addr ≤ key ∧ d[key - r.acc.addr]? = some (some b)

/-- The operators of DAPP, numbered as the op cache numbers them (R305): AND, OR, XOR, NAND, NOR, XNOR, implication and
difference. -/
def truthOf (op : Nat) (a b : Bool) : Bool :=
  [a && b, a || b, a ^^ b, !(a && b), !(a || b), !(a ^^ b), !a || b, a && !b].getD (op - 1) false

/-- The checks of a diagram job have passed, giving its space (R302): the engine has read its descriptor and done nothing
else for it, no request of it is out, and no word it reads holds an error. -/
structure Opened (cl slot sub : Nat) (j : Job) (r : Run) (sp : DSpace) (e : EngRun) : Prop where
  opens : (ExceptT.run (openSpace sub)).run { run := r, cl := cl, slot := slot, left := j.log, job := j.fresh } = (.ok sp, e)
  going : e.left = [] ∧ e.job.out = 0 ∧ e.job.mark.nodes = 0 ∧ e.job.owned = [] ∧ e.job.bad = [] ∧ e.job.args = j.args ∧
    e.job.engine = 1

/-- A request of an engine's job stands at the head of the queue of pool k, at an offset, and nothing beside the operation
itself is due there: the port has served nothing in this clock (R18), no word has a waiter, no error waits in the pool, no
watch is set. -/
structure AtPool (s : State) (k off : Nat) (r : Req) (e : EngRef) (j : Job) : Prop where
  head : s.arrived (.pool k) = some (.pool k, r)
  free : s.portBusy (.pool k) = false
  mine : r.eng = some e ∧ s.jobOf e.cl e.slot = some j ∧ (s.slotOf e.cl e.slot).gen = e.gen
  place : r.acc.home = .pool k ∧ r.acc.core = false ∧ r.acc.far = none ∧ r.acc.addr = poolKey k off
  inside : off + 8 ≤ poolSize
  unmarked : ∀ w, (s.syncOf w).getLsbD 1 = false
  sound : s.errs.single = [] ∧ s.errs.double = []
  unwatched : ∀ i, (s.core i).regs.wpctl.getLsbD 5 = false
  wf : Mem.wf s.mem = true

/-- Instruction j of a block is reachable from instruction i through instruction targets (R39). -/
inductive Depends (ws : List Code) : Nat → Nat → Prop where
  | target (i j : Nat) (w : Code) (f : FormInfo) (s : Slot) (k : BitVec 6) : ws[i]? = some w → w.info = some f →
      .slot s k ∈ w.outs f → k.toNat = j → Depends ws i j
  | trans (i j k : Nat) : Depends ws i j → Depends ws j k → Depends ws i k

/-- A non-trapping form (R39): those of INTA, INTI, LOGIC and PRED; MOV, MOVI, MOVHI, NULL, GET, GTID, CORE and CLK; BRA, JMP,
CALL, RET and TEND. -/
def FormInfo.quiet (f : FormInfo) : Prop :=
  (1 ≤ f.op ∧ f.op ≤ 4) ∨ (f.op = 5 ∧ f.sub ∈ [0, 1, 2, 3, 4, 7, 8, 9]) ∨ (f.op = 7 ∧ f.sub ≤ 4)

/-- A block passes every check of Table 10 of R46 that concerns a block or a word: its header h and its instructions. Checks
0x01 and 0x02 concern the page. -/
structure BlockGood (h : Code) (ws : List Code) : Prop where
  /-- A header, and 0x04 of it. -/
  header : h.isHeader = true ∧ h.getLsbD 81 = false ∧ h.getLsbD 24 = false ∧ h.toNat / 2 ^ 16 % 16 = 0
  /-- 0x03, and GM of 0x04. -/
  forms : ∀ w ∈ ws, (decode w).isSome = true ∧ w.gm ≠ .reserved
  /-- 0x04 of the fields of a word: RX and HN where they may stand (R25, R26), WD, XF and Z as the form uses them, and zero
  where a format leaves them unused (R27, R28, R31). -/
  fields : ∀ w ∈ ws, ∀ f, w.info = some f →
    let hn := bits w.toNat 80 78
    let rx := w.getLsbD 81 = true
    let lw := w.lw.toNat
    (rx → f.rx = true) ∧
    (if f.op = 0x20 then hn / 2 < 2 ∧ (rx → hn / 2 = 0) else if f.mem = true then hn = 0 else hn ≤ 1) ∧
    match f.fmt with
    | .a => lw / 16 ∈ f.wds ∧ lw % 16 ∈ f.xfs ∧ f.z.ok w.z = true
    | .k => lw = 0
    | .g => lw = 0 ∧ bits w.toNat 23 5 = 0 ∧ ¬(w.getLsbD 4 = true ∧ w.getLsbD 3 = true)
    | .b => lw = 0 ∧ bits w.toNat 47 27 = 0 ∧ f.z.ok w.z = true
    | .m | .e | .s => f.z.ok w.z = true
  /-- 0x05 of the bits of a target field: all zero where the form has no result and where V is 0, and zero where Table 2 of R29
  says so. -/
  targetBits : ∀ w ∈ ws, ∀ f, w.info = some f → ∀ i, i < (if f.fmt = .k ∨ f.fmt = .b then 2 else 4) →
    let t := bits w.toNat (71 - 12 * i) (60 - 12 * i)
    (f.fmt ≠ .g → f.res = none → t = 0) ∧ (t.testBit 11 = false → t = 0) ∧
      (t.testBit 10 = false → bits t 7 6 = 0) ∧
      (t.testBit 10 = true → bits t 9 5 = 0 ∧ ¬(t.testBit 4 = true ∧ t.testBit 3 = true))
  /-- 0x05 and 0x06: a target names a slot of a later instruction of the block that takes it, or a register of its kind. -/
  targets : ∀ (i : Nat) w f, ws[i]? = some w → w.info = some f → ∀ x ∈ w.outs f, match x with
    | .greg _ => w.resVec f = false
    | .vreg _ => w.resVec f = true
    | .slot s k => i < k.toNat ∧ ∃ c g, ws[k.toNat]? = some c ∧ c.info = some g ∧ match s with
      | .a => g.a = some (w.resVec f)
      | .b => g.b = some (w.resVec f)
      | .c => g.c = some (w.resVec f)
      | .p => c.gm ≠ .none ∧ w.resVec f = false
  /-- 0x07 and 0x08: each slot a form uses is fed by one instruction, and none names a target twice. -/
  fed : ∀ (k : Nat) c g s, ws[k]? = some c → c.info = some g → (s ∈ formSlots g ∨ (s = .p ∧ c.gm ≠ .none)) →
    let feeds := fun (i : Nat) => ∃ (w : Code) (f : FormInfo), ws[i]? = some w ∧ w.info = some f ∧ Target.slot s (BitVec.ofNat 6 k) ∈ w.outs f
    ∃ i, feeds i ∧ ∀ j, feeds j → j = i
  once : ∀ w ∈ ws, ∀ f, w.info = some f → (w.outs f).Nodup
  /-- 0x09: LSIDs are below 32, and none stands twice; a form that takes none carries 63 where its format has the field. -/
  lsids : ∀ (i j : Nat) v w f g, ws[i]? = some v → ws[j]? = some w → v.info = some f → w.info = some g → f.mem = true →
    g.mem = true → v.lw.toNat < 32 ∧ (v.lw = w.lw → i = j)
  noLsid : ∀ w ∈ ws, ∀ f, w.info = some f → f.fmt = .s → w.lw = 63
  /-- 0x0A: the masks name the LSIDs of the stores and the registers delivered to. -/
  masks : (∀ n, n < 32 → (h.smask.getLsbD n = true ↔ ∃ w ∈ ws, ∃ f, w.info = some f ∧ f.store = true ∧ w.lw.toNat = n)) ∧
    (∀ n, n < 16 → (h.gwmask.getLsbD n = true ↔
      ∃ w ∈ ws, ∃ f, w.info = some f ∧ Target.greg (BitVec.ofNat 4 n) ∈ w.outs f)) ∧
    ∀ n, n < 8 → (h.vwmask.getLsbD n = true ↔ ∃ w ∈ ws, ∃ f, w.info = some f ∧ Target.vreg (BitVec.ofNat 3 n) ∈ w.outs f)
  /-- 0x0B: an irrevocable form stands in a sync block alone, one to a block, behind every other memory form; what is
  reachable from it is a non-trapping form, of no memory class, and neither it nor that delivers to g14 (R39, R189). -/
  sync : if h.isSync then ∃ k w f, ws[k]? = some w ∧ w.info = some f ∧ f.irr = true ∧ .greg 14 ∉ w.outs f ∧
      (∀ j v g, Depends ws k j → ws[j]? = some v → v.info = some g → g.mem = false ∧ FormInfo.quiet g ∧ .greg 14 ∉ v.outs g) ∧
      ∀ (i : Nat) v g, i ≠ k → ws[i]? = some v → v.info = some g →
        g.irr = false ∧ (f.mem = true → g.mem = true → v.lw.toNat < w.lw.toNat)
    else ∀ w ∈ ws, ∀ f, w.info = some f → f.irr = false
  /-- 0x0C: there is an exit, and NEXIT is the highest exit number. -/
  exits :
    let number := fun (w : Code) (f : FormInfo) => if f.fmt = .b then w.toNat / 2 ^ 24 % 8 else 0
    (∃ w ∈ ws, ∃ f, w.info = some f ∧ f.exit = true ∧ number w f = h.nexit.toNat) ∧
      ∀ w ∈ ws, ∀ f, w.info = some f → f.exit = true → number w f ≤ h.nexit.toNat
  /-- 0x0D. -/
  signature : h.sig = 0 ∨ h.sig = blockSig h ws

/-! ### Contexts and their ends -/

/-- A context made FREE (R80, R93): its generation is one more, it holds no block, no access and no wait. -/
def Freed (c d : Ctx) : Prop :=
  d.status = .free ∧ d.gen = c.gen + 1 ∧ d.phase = .idle ∧ d.win = {} ∧ d.accs = [] ∧ d.wait = none

/-- The registers at a block's commit (R30, R42, R69): its deliveries, and XSIG advanced by exit number n. -/
def Window.regsAfter (w : Window) (r : Regs) (n : Nat) : Regs :=
  { writeOuts r w.outs with xsig := nextXsig r.xsig w.addr n }

/-- The almanac entry of a span that ended now on the context (R368): GTID, context, end and clock, where the home check,
off here, posts no record over it. -/
def Recorded (s : State) (core ctx end_ : Nat) (t : State) : Prop :=
  let a := poolKey core (almanacBase + 32 * (s.core core).regs.almidx.toNat)
  let w2 := (Mem.read64 t.mem (a + 16)).toNat
  ((s.core core).regs.wpctl.getLsbD 5 = false → Mem.read64 t.mem a = (s.ctx core ctx).task.gtid ∧
    w2 / 2 ^ 48 % 16 = ctx % 16 ∧ w2 / 2 ^ 52 % 16 = end_ ∧
    (Mem.read64 t.mem (a + 24)).toNat % 2 ^ 48 = s.clk.toNat % 2 ^ 48) ∧
    (t.core core).regs.almidx = (s.core core).regs.almidx + 1

/-- A launch with one task less (R80, R333). -/
def OneLess (s : State) (n : Nat) (bad : Bool) (t : State) : Prop :=
  ∀ l, s.launch? n = some l → t.launch? n = some { l with live := l.live - 1, terminated := l.terminated || bad }

/-- A slot of the context in which its block may commit (R64, R66, R69): its own, unused, not taken by the fetch, and the
NI send queue has room. -/
structure SlotFor (s : State) (core ctx : Nat) : Prop where
  active : (s.ctx core ctx).status = .active
  own : slotOpen (s.ctx core ctx) ctx s.clk.toNat = true
  free : (s.ctx core ctx).busy ≤ s.clk.toNat
  room : s.niFull core ctx = false

/-- A block is complete and commits in this slot through exit e, an instruction x (R69, R70): it has passed its last checks
at its commit point (R72), or none stands against it now. -/
structure Committing (s : State) (core ctx : Nat) (e : ExitFired) (x : Instr) : Prop where
  slot : SlotFor s core ctx
  complete : (s.ctx core ctx).complete = true
  checked : (s.ctx core ctx).win.commitPoint.isSome = true ∨
    ((s.ctx core ctx).win.sigBad = false ∧ stackBelow (s.ctx core ctx).win = none ∧ (s.ctx core ctx).lost = none)
  exits : (s.ctx core ctx).win.exits = [e]
  word : ((s.ctx core ctx).win.insts[e.idx]?).bind (fun i => decode i.word) = some x

/-! ### Requests -/

/-- A send of this access puts a request on its way (R193): neither a load all of whose bytes the block's own stores give
(R173) nor a form that performs no access. -/
def Dispatches (c : Ctx) (a : Access) : Prop :=
  match a.op with
  | .load => a.rank ≠ 0 ∨ none ∈ c.forwarded a
  | .fence | .pgstat | .tlbinv _ | .store [] => False
  | _ => True

/-- The request an access becomes, and where it then stands: a LOCAL one last at its pool's port, any other at the end of
its channel (R190). -/
def Sent (s : State) (core ctx : Nat) (a : Access) (t : State) : Prop :=
  ∃ r : Req, r.core = core ∧ r.ctx = ctx ∧ r.gen = (s.ctx core ctx).gen ∧ r.acc.key = a.key ∧ r.acc.op = a.op ∧
    r.acc.addr = a.addr ∧ r.acc.size = a.size ∧ r.acc.home = a.home ∧
    (a.op = .load → a.rank = 0 → r.acc.fwd = (s.ctx core ctx).forwarded a) ∧
    (if a.home = .pool core ∧ a.core = false then
      t.net.homes = s.net.homes ++ [(a.home, r)] ∧ t.net.channels = s.net.channels
    else t.net.channels = s.net.channels ++ [(.ni core, a.home, r)] ∧ t.net.homes = s.net.homes)

/-- The port of pool k serves a request of its own core in this clock: it has served none, and an action that holds it
touches other bytes (R18, R319). -/
abbrev PortOpen (s : State) (k : Nat) (r : Req) : Prop :=
  (s.core k).portAt ≠ some s.clk.toNat ∧ (s.clk.toNat < (s.core k).hold.till → ∀ x ∈ (s.core k).hold.touched,
    r.acc.addr - poolKey k 0 + r.acc.size ≤ x.1 ∨ x.1 + x.2 ≤ r.acc.addr - poolKey k 0)

/-- A request of core k to a word of its own pool stands at the head of the queue of home k, and nothing beside the
operation itself is due there: the port serves it in this clock, the task is the one that sent it, the word has
no waiter and no error, no watch is set. -/
structure OwnWord (s : State) (k off : Nat) (r : Req) (l : List (Home × Req)) : Prop where
  head : s.net.homes = (.pool k, r) :: l
  free : PortOpen s k r
  mine : r.core = k ∧ r.eng = none ∧ r.acc.core = false ∧ r.acc.far = none ∧ r.acc.home = .pool k
  place : r.acc.addr = poolKey k off
  aligned : off % 8 = 0
  inside : off + 8 ≤ poolSize
  size : r.acc.size = 8
  live : (s.ctx k r.ctx).gen = r.gen
  running : (s.ctx k r.ctx).phase = .run
  unmarked : (s.syncOf (poolKey k off / 8)).getLsbD 1 = false
  sound : s.errs.single = [] ∧ s.errs.double = []
  unwatched : (s.core k).regs.wpctl.getLsbD 5 = false
  wf : Mem.wf s.mem = true

/-- The home has performed the request: its answer is on the way, the word holds v with the full flag f, and every other
byte and every other word's state is as before. -/
def Performed (s : State) (k off : Nat) (r : Req) (l : List (Home × Req)) (body : ReplyBody) (v : Word) (f : Bool)
    (t : State) : Prop :=
  t.net.homes = l ∧ t.net.replies = s.net.replies ++ [{ core := k, ctx := r.ctx, gen := r.gen, acc := r.acc, body := body }] ∧
    Mem.read64 t.mem (poolKey k off) = v ∧ (t.syncOf (poolKey k off / 8)).getLsbD 0 = f ∧
    (∀ a, (a < poolKey k off ∨ poolKey k off + 8 ≤ a) → Mem.get t.mem a = Mem.get s.mem a) ∧
    (∀ w, w ≠ poolKey k off / 8 → t.syncOf w = s.syncOf w)

/-- A rate form of core k on the descriptor d at an offset of its own pool stands at the head of the pool's queue, whose port
serves it in this clock; the task is the one that sent it, no word has a waiter or an error, no watch is set (R319). -/
structure OwnSet (s : State) (k off : Nat) (r : Req) (op : RateOp) (d : RateDesc) : Prop where
  head : s.arrived (.pool k) = some (.pool k, r)
  free : PortOpen s k r
  mine : r.core = k ∧ r.eng = none ∧ r.acc.core = false ∧ r.acc.far = none ∧ r.acc.home = .pool k
  form : r.acc.op = .rate op
  place : r.acc.addr = poolKey k off
  inside : off + 64 ≤ poolSize
  desc : d = descAt s.mem k off
  live : (s.ctx k r.ctx).gen = r.gen
  unmarked : ∀ w, (s.syncOf w).getLsbD 1 = false
  sound : s.errs.single = [] ∧ s.errs.double = []
  unwatched : (s.core k).regs.wpctl.getLsbD 5 = false
  wf : Mem.wf s.mem = true

/-- The records of a set lie apart from its descriptor, in a region of the LPU that admits both (R318). -/
structure RecordsInside (s : State) (r : Req) (d : RateDesc) : Prop where
  admitted : ∃ w ∈ (s.ctx r.core r.ctx).win.snap.core.lprot.toList,
    regionAdmits w r.ctx d.off (d.off + 64) r.acc.op.needs = true ∧
      lprotBase w ≤ d.mbase ∧ d.mbase + d.count * d.rsz ≤ lprotLimit w
  fits : d.mbase + d.count * d.rsz ≤ poolSize
  apart : d.mbase + d.count * d.rsz ≤ d.off ∨ d.off + 64 ≤ d.mbase

/-- The home has performed the request of its own core, and the answer is on its way. -/
def Replied (s : State) (r : Req) (body : ReplyBody) (t : State) : Prop :=
  t.net.homes = s.net.homes.erase (r.acc.home, r) ∧ t.sync = s.sync ∧
    t.net.replies = s.net.replies ++ [{ core := r.core, ctx := r.ctx, gen := r.gen, acc := r.acc, body := body }]

/-- A member with its pending value folded in (R317). -/
def Member.folded (x : Member) (n : Nat) : Member :=
  if x.pending n then { x with cur := x.next, k := x.kn, pend := false } else x

/-! ### Requests of the host -/

/-- The one request at a mailbox of a module that is running, with the eight words of its parameter block (R353). -/
structure Asked (s : State) (port : Nat) (op : BitVec 8) (p : List Word) : Prop where
  reached : port < 2
  running : s.mgmt.start = .running
  params : p.length = 8
  only : s.mgmt.reqs = [{ path := .mailbox port, op := op, param := p }]
  wf : Mem.wf s.mem = true

/-- The request has been answered at its mailbox (R353): BUSY is clear, DONE set, the status and the count stand in
STAT. -/
def Answered (port status count : Nat) (t : State) : Prop :=
  let r := vget {} t.mgmt.ports port
  r.busy = false ∧ r.done = true ∧ r.status = BitVec.ofNat 8 status ∧ r.count = BitVec.ofNat 32 count ∧ t.mgmt.reqs = []

/-- The request has been begun and waits for its effect, or for the end of a task on a context. -/
def Begun (port : Nat) (op : BitVec 8) (p : List Word) (t : State) (on : Option (Nat × Nat × BitVec 8) := none) : Prop :=
  t.mgmt.reqs = [{ path := .mailbox port, op := op, param := p, begun := true, target := on }]

/-! ### What every step keeps -/

/-- Keys of a table strictly rise. -/
def keysRise {α : Type} (l : List (Nat × α)) : Prop := (l.map (·.1)).Pairwise (· < ·)

/-- Memory and every table of the state stand in their one canonical form, so that equal contents are equal states. -/
structure Canonical (s : State) : Prop where
  mem : Mem.wf s.mem = true
  sync : keysRise s.sync ∧ ∀ e ∈ s.sync, e.2 ≠ 0
  ctxs : keysRise s.ctxs
  cores : keysRise s.cores
  clusters : keysRise s.clusters
  parts : keysRise s.parts
  launches : keysRise s.launches

/-- A form that only makes a token: the scalar integer, logic, predicate and floating-point forms, and the MOVE forms that
neither read nor write a control register. -/
def FormInfo.onlyToken (f : FormInfo) : Prop :=
  (1 ≤ f.op ∧ f.op ≤ 4) ∨ f.op = 6 ∨ (f.op = 5 ∧ f.sub ∈ [0, 1, 2, 3, 4, 7, 8, 9])

/-- The state after the current form has fired null (R34): a null token has gone to every target, the commit point is
marked if the form is irrevocable, and nothing else has changed. -/
def State.nulled (s : State) (ts : List Target) (irr : Bool) (due : Nat) : State :=
  s.withWin fun w => { (w.issue s.cur.idx).emit s.cur.idx ts .null due with committed := w.committed || irr }

end Sys2Proof.Machine
end

