-- ==== Sys2Proof/Certificates/Slice0/Obligations.lean ====
section
/-! DEFINITION. The statements for the provers. Each docstring names the rules of the spec it formalises. -/

section
open Sys2Proof Sys2Proof.Machine

/-! ### Integer forms: INTA, INTI, LOGIC and PRED -/

/-- R107 and R108, Table 4: each two-operand INTA form that fires emits its value at the width WD names, DIV, REM, DIVU
and REMU with a zero divisor included (the overflowing division wraps to −2^(n−1), its remainder to 0), and does nothing
else.
R107, Table 4: the one-operand INTA forms. ABS and NEG of −2^(n−1) give −2^(n−1). -/
def Obligations.IntegerArithmeticResults : Prop :=
  (∀ (f : FmtA) (s : State) (i : Inst), Firing s f.gm [.a, .b] i →
     let n := wbits f.wd
     let a := i.low .a n
     let b := i.low .b n
     let ts := targetList f.t
     Emits s (exec (.add f) s) ts (signed (a + b)) ∧
     Emits s (exec (.sub f) s) ts (signed (a - b)) ∧
     Emits s (exec (.mul f) s) ts (signed (a * b)) ∧
     Emits s (exec (.mulh f) s) ts (signed ((a.signExtend (2 * n) * b.signExtend (2 * n)).extractLsb' n n)) ∧
     Emits s (exec (.mulhu f) s) ts (unsigned ((a.setWidth (2 * n) * b.setWidth (2 * n)).extractLsb' n n)) ∧
     Emits s (exec (.div f) s) ts (signed (if b = 0 then -1 else a.sdiv b)) ∧
     Emits s (exec (.divu f) s) ts (unsigned (if b = 0 then BitVec.allOnes n else a / b)) ∧
     Emits s (exec (.rem f) s) ts (signed (if b = 0 then a else a.srem b)) ∧
     Emits s (exec (.remu f) s) ts (unsigned (if b = 0 then a else a % b)) ∧
     Emits s (exec (.min f) s) ts (signed (if a.sle b then a else b)) ∧
     Emits s (exec (.max f) s) ts (signed (if a.sle b then b else a)) ∧
     Emits s (exec (.minu f) s) ts (unsigned (if a.ule b then a else b)) ∧
     Emits s (exec (.maxu f) s) ts (unsigned (if a.ule b then b else a))) ∧
  (∀ (f : FmtA) (s : State) (i : Inst), Firing s f.gm [.a] i →
     let n := wbits f.wd
     let a := i.low .a n
     Emits s (exec (.neg f) s) (targetList f.t) (signed (-a)) ∧
     Emits s (exec (.abs f) s) (targetList f.t) (signed (if a.msb then -a else a)))

/-- R107, Table 4: the INTI forms, whose second operand is the sign-extended Z field.
R109: LEA adds the base, the index scaled by 1, 2, 4 or 8 and the sign-extended Z, and cuts the sum to WD. -/
def Obligations.ImmediateAndLeaResults : Prop :=
  (∀ (f : FmtA) (s : State) (i : Inst), Firing s f.gm [.a] i →
     let n := wbits f.wd
     let a := i.low .a n
     let b := immLow f n
     let m := b.toNat % n
     let ts := targetList f.t
     Emits s (exec (.addi f) s) ts (signed (a + b)) ∧
     Emits s (exec (.muli f) s) ts (signed (a * b)) ∧
     Emits s (exec (.andi f) s) ts (unsigned (a &&& b)) ∧
     Emits s (exec (.ori f) s) ts (unsigned (a ||| b)) ∧
     Emits s (exec (.xori f) s) ts (unsigned (a ^^^ b)) ∧
     Emits s (exec (.shli f) s) ts (unsigned (a <<< m)) ∧
     Emits s (exec (.shri f) s) ts (unsigned (a >>> m)) ∧
     Emits s (exec (.sari f) s) ts (signed (a.sshiftRight m)) ∧
     Emits s (exec (.ceqi f) s) ts (predTok (a == b)) ∧
     Emits s (exec (.cnei f) s) ts (predTok (a != b)) ∧
     Emits s (exec (.clti f) s) ts (predTok (a.slt b)) ∧
     Emits s (exec (.clei f) s) ts (predTok (a.sle b)) ∧
     Emits s (exec (.cltui f) s) ts (predTok (a.ult b)) ∧
     Emits s (exec (.cleui f) s) ts (predTok (a.ule b))) ∧
  (∀ (f : FmtA) (s : State) (i : Inst), Firing s f.gm [.a, .b] i →
     Emits s (exec (.lea f) s) (targetList f.t)
       (unsigned (((i.tok .a).word + ((i.tok .b).word <<< (f.xf.toNat % 4)) + f.z.signExtend 64).setWidth (wbits f.wd))))

/-- R110 and R111, Table 5: the LOGIC forms.
R112 to R115, Table 6: the compares and the forms on predicates. ISNULL alone takes a null token and emits 1 of it. -/
def Obligations.LogicAndPredicateResults : Prop :=
  ((∀ (f : FmtA) (s : State) (i : Inst), Firing s f.gm [.a, .b] i →
     let n := wbits f.wd
     let a := i.low .a n
     let b := i.low .b n
     let m := b.toNat % n
     let pos := (i.low .b 8).toNat
     let len := (((i.tok .b).word >>> 8).setWidth 8).toNat
     let ts := targetList f.t
     Emits s (exec (.and f) s) ts (unsigned (a &&& b)) ∧
     Emits s (exec (.or f) s) ts (unsigned (a ||| b)) ∧
     Emits s (exec (.xor f) s) ts (unsigned (a ^^^ b)) ∧
     Emits s (exec (.shl f) s) ts (unsigned (a <<< m)) ∧
     Emits s (exec (.shr f) s) ts (unsigned (a >>> m)) ∧
     Emits s (exec (.sar f) s) ts (signed (a.sshiftRight m)) ∧
     Emits s (exec (.rot f) s) ts (unsigned (a.rotateLeft m)) ∧
     Emits s (exec (.bfx f) s) ts (unsigned (if n ≤ pos ∨ len = 0 then 0
       else (a >>> pos) &&& BitVec.ofNat n (2 ^ min len (n - pos) - 1)))) ∧
   (∀ (f : FmtA) (s : State) (i : Inst), Firing s f.gm [.a] i →
     let n := wbits f.wd
     let a := i.low .a n
     let ts := targetList f.t
     Emits s (exec (.not f) s) ts (unsigned (~~~a)) ∧
     Emits s (exec (.clz f) s) ts (unsigned a.clz) ∧
     Emits s (exec (.ctz f) s) ts (unsigned a.ctz) ∧
     Emits s (exec (.popc f) s) ts (.scalar (BitVec.ofNat 64 ((List.range n).countP fun k => a.getLsbD k))) ∧
     Emits s (exec (.sext f) s) ts (signed a) ∧
     Emits s (exec (.zext f) s) ts (unsigned a)) ∧
   (∀ (f : FmtA) (s : State) (i : Inst), Firing s f.gm [.a, .b, .c] i →
     let n := wbits f.wd
     let a := i.low .a n
     let pos := (i.low .b 8).toNat
     let len := (((i.tok .b).word >>> 8).setWidth 8).toNat
     let mask := BitVec.ofNat n (2 ^ min len (n - pos) - 1) <<< pos
     Emits s (exec (.bfi f) s) (targetList f.t) (unsigned (if n ≤ pos ∨ len = 0 then a
       else (a &&& ~~~mask) ||| ((i.low .c n <<< pos) &&& mask))))) ∧
  ((∀ (f : FmtA) (s : State) (i : Inst), Firing s f.gm [.a, .b] i →
     let n := wbits f.wd
     let a := i.low .a n
     let b := i.low .b n
     let p := (i.tok .a).word.getLsbD 0
     let q := (i.tok .b).word.getLsbD 0
     let ts := targetList f.t
     Emits s (exec (.ceq f) s) ts (predTok (a == b)) ∧
     Emits s (exec (.cne f) s) ts (predTok (a != b)) ∧
     Emits s (exec (.clt f) s) ts (predTok (a.slt b)) ∧
     Emits s (exec (.cle f) s) ts (predTok (a.sle b)) ∧
     Emits s (exec (.cltu f) s) ts (predTok (a.ult b)) ∧
     Emits s (exec (.cleu f) s) ts (predTok (a.ule b)) ∧
     Emits s (exec (.pand f) s) ts (predTok (p && q)) ∧
     Emits s (exec (.por f) s) ts (predTok (p || q)) ∧
     Emits s (exec (.pxor f) s) ts (predTok (p != q)) ∧
     ∃ w : Word, Emits s (exec (.ppack f) s) ts (.scalar w) ∧
       ∀ k, k < 64 → w.getLsbD k = if k = f.xf.toNat then q else (i.tok .a).word.getLsbD k) ∧
   (∀ (f : FmtA) (s : State) (i : Inst), Firing s f.gm [.a] i →
     Emits s (exec (.pnot f) s) (targetList f.t) (predTok (!(i.tok .a).word.getLsbD 0)) ∧
     Emits s (exec (.pbit f) s) (targetList f.t) (predTok ((i.tok .a).word.getLsbD f.xf.toNat))) ∧
   (∀ (f : FmtA) (s : State) (i : Inst), Firing s f.gm [.a, .b, .c] i →
     Emits s (exec (.sel f) s) (targetList f.t)
       (unsigned (if (i.tok .a).word.getLsbD 0 then i.low .b (wbits f.wd) else i.low .c (wbits f.wd)))) ∧
   (∀ (f : FmtA) (s : State) (i : Inst) (t : Token), Firing s f.gm [] i → i.a = some t →
     Emits s (exec (.isnull f) s) (targetList f.t) (predTok (decide (t = .null)))))

/-! ### MOVE forms, control registers, random streams, FORK and PAUSE -/

/-- R97 and R116, Table 8: the MOVE forms that never fault. GET reads the register as it stood at block start; CLK is the
clock of issue. -/
def Obligations.MoveResults : Prop :=
  (∀ (f : FmtA) (s : State) (i : Inst), Firing s f.gm [.a] i →
    Emits s (exec (.mov f) s) (targetList f.t) (i.tok .a) ∧
    Emits s (exec (.movhi f) s) (targetList f.t)
      (.scalar (f.z.extractLsb' 0 16 ++ (i.tok .a).word.extractLsb' 0 48))) ∧
  (∀ (f : FmtK) (s : State) (i : Inst), Firing s f.gm [] i →
    Emits s (exec (.movi f) s) ([f.t0, f.t1].filterMap id) (.scalar (f.imm.signExtend 64))) ∧
  (∀ (f : FmtG) (s : State) (i : Inst), Firing s f.gm [] i → f.vec = false →
    Emits s (exec (.get f) s) (targetList f.t) (.scalar (s.curCtx.win.snap.regs.g[f.reg.toNat]'f.reg.isLt))) ∧
  (∀ (f : FmtG) (s : State) (i : Inst), Firing s f.gm [] i → f.vec = true → ∀ h : f.reg.toNat < 8,
    Emits s (exec (.get f) s) (targetList f.t)
      (.vector (s.curCtx.win.snap.regs.v[f.reg.toNat]'h).bits (s.curCtx.win.snap.regs.v[f.reg.toNat]'h).tag 0)) ∧
  (∀ (f : FmtA) (s : State) (i : Inst), Firing s f.gm [] i →
    Emits s (exec (.null f) s) (targetList f.t) .null ∧
    Emits s (exec (.gtid f) s) (targetList f.t) (.scalar s.curCtx.task.gtid) ∧
    Emits s (exec (.core f) s) (targetList f.t)
      (.scalar (BitVec.ofNat 64 (16 * s.logical s.cur.core + s.cur.ctx))) ∧
    Emits s (exec (.clk f) s) (targetList f.t) (.scalar s.clk))

/-- R117: MFC of a task-level register, or of any register at supervisor level, emits the register's kept bits as they stood
at block start.
R117 and R118: a task that is not at supervisor level takes PRIV (cause 0x11) on MFC and MTC of a privileged number,
and on MTC of a read-only one, with the number in TADDR. MTC of a value that its register refuses takes PROT (cause 0x02)
with the value in TADDR: STEALDOM above 4 (R101), a PARTW that is not good or while the core holds another task (R164), an
ASID outside the partition's range or with bits above 47 (R204), an RWTB that is not aligned or runs past the pool (R170),
a PAGERQ that is not 0 and is not aligned to 4 KiB or not in a pool of the supervisor partition (R205). -/
def Obligations.ControlRegisterReadAndPrivilege : Prop :=
  (∀ (f : FmtA) (s : State) (i : Inst), Firing s f.gm [] i →
     let n := f.z.toNat % 256
     n < 0x20 ∨ s.curCtx.task.sup = true →
     Emits s (exec (.mfc f) s) (targetList f.t) (.scalar (readCtrl s.curCtx.win.snap n))) ∧
  ((∀ (f : FmtA) (s : State) (i : Inst), Firing s f.gm [] i → TrapReady s → Mem.wf s.mem = true →
     0x20 ≤ f.z.toNat % 256 → s.curCtx.task.sup = false →
     Reaches (exec (.mfc f) s) (TrapTaken s 0x11 (BitVec.ofNat 64 (f.z.toNat % 256)))) ∧
   (∀ (f : FmtA) (s : State) (i : Inst), Firing s f.gm [.a] i → TrapReady s → Mem.wf s.mem = true →
     (0x20 ≤ f.z.toNat % 256 ∧ s.curCtx.task.sup = false) ∨ (5 ≤ f.z.toNat % 256 ∧ f.z.toNat % 256 ≤ 8) →
     Reaches (exec (.mtc f) s) (TrapTaken s 0x11 (BitVec.ofNat 64 (f.z.toNat % 256)))) ∧
   (∀ (f : FmtA) (s : State) (i : Inst), Firing s f.gm [.a] i → TrapReady s → Mem.wf s.mem = true →
     let n := f.z.toNat % 256
     let v := (i.tok .a).word
     let p := s.partRec s.cur.core
     (n = 9 ∧ 4 < v.toNat) ∨
       (s.curCtx.task.sup = true ∧
         ((n = 0x20 ∧ (partwOk v = false ∨ holdsOthers s s.cur.core s.cur.ctx = true)) ∨
          (n = 0x29 ∧ (2 ^ 48 ≤ v.toNat ∨ v.toNat % 4096 < p.abase ∨ p.abase + p.acount ≤ v.toNat % 4096)) ∨
          (n = 0x2A ∧ (v.toNat % 32 ≠ 0 ∨ poolSize < v.toNat + 256)) ∨
          (n = 0x2B ∧ v ≠ 0 ∧ (v.toNat % 4096 ≠ 0 ∨ ∀ id off, classify v 0x1000 = .core id off →
             ∀ u, s.supPart = some u → s.phys u id = none)))) →
     Reaches (exec (.mtc f) s) (TrapTaken s 0x02 v)))

/-- R118: MTC that passes the checks of its register (R101, R118, and R164, R170, R204, R205 for PARTW, RWTB, ASID and
PAGERQ: 0, or an aligned page in a pool of the supervisor partition) leaves the write for the block's commit and fires without
a result.
R101 and R118: a control register written at commit reads back as its kept bits, and no other control register
changes. (EVSTAT and the read-only registers have rules of their own.) -/
def Obligations.ControlRegisterWriteReadsBack : Prop :=
  (∀ (f : FmtA) (s : State) (i : Inst), Firing s f.gm [.a] i →
     let n := f.z.toNat % 256
     let v := (i.tok .a).word
     n < 0x20 ∨ s.curCtx.task.sup = true → ¬(5 ≤ n ∧ n ≤ 8) → (n = 9 → v.toNat ≤ 4) →
     (n = 0x20 → partwOk v = true ∧ holdsOthers s s.cur.core s.cur.ctx = false) →
     (n = 0x29 → v.toNat < 2 ^ 48 ∧ (s.partRec s.cur.core).abase ≤ v.toNat % 4096 ∧
       v.toNat % 4096 < (s.partRec s.cur.core).abase + (s.partRec s.cur.core).acount) →
     (n = 0x2A → v.toNat % 32 = 0 ∧ v.toNat + 256 ≤ poolSize) → (n = 0x2B → v = 0 ∨ v.toNat % 4096 = 0 ∧
       ∃ id off u k, classify v 0x1000 = .core id off ∧ off + 0x1000 ≤ poolSize ∧ s.supPart = some u ∧
         s.phys u id = some k) →
     exec (.mtc f) s = .next (s.withWin fun w =>
       { (w.issue s.cur.idx).emit s.cur.idx [] .null (dueAt s 1) with
         mtc := some (BitVec.ofNat 8 n, v), committed := true })) ∧
  (∀ (sn : Snap) (n m : Nat) (v : Word), ctrlNumber n = true → ¬(5 ≤ n ∧ n ≤ 8) → n ≠ 0x38 →
     let after : Snap := if n < 0x20 then { sn with regs := writeTaskReg sn.regs n v }
       else if clusterScope n then { sn with cluster := writeClusterReg sn.cluster n v }
       else { sn with core := writeCoreReg sn.core n v }
     readCtrl after n = v &&& keptBits n ∧ (m ≠ n → ctrlNumber m = true → readCtrl after m = readCtrl sn m))

/-- R119: SIGCHK of the value XSIG had at block start emits 1. On any other value the block aborts, nothing is delivered
and TADDR holds the operand; a first mismatch of the block fetches it again, with XSIG unchanged; a mismatch on that
second execution halts the context, and the containment of its umbra is due (R41, R340).
R120 and R121, Table 9: RNGOPEN opens the lowest closed stream with the key and emits its handle, or all ones when
every stream is open; RNGCLOSE closes an open stream and emits 1, and of a handle that is not open it emits 0 and closes
nothing; RNGDRAW emits the value of the stream's key at the offset, in two slots, and of a handle that is not open, 4 and
above among them, it takes PROT with the handle in TADDR. -/
def Obligations.SignatureCheckAndRandomStreams : Prop :=
  ((∀ (f : FmtA) (s : State) (i : Inst), Firing s f.gm [.a] i → (i.tok .a).word = s.curCtx.win.snap.regs.xsig →
     Emits s (exec (.sigchk f) s) (targetList f.t) (.scalar 1)) ∧
   (∀ (f : FmtA) (s : State) (i : Inst), Firing s f.gm [.a] i → (i.tok .a).word ≠ s.curCtx.win.snap.regs.xsig →
     Ctx.loadsOut { s.curCtx with accs := dropBlock s.curCtx } = false →
     Reaches (exec (.sigchk f) s) fun t =>
       let c := s.curCtx
       let d := t.ctx s.cur.core s.cur.ctx
       d.win = {} ∧ d.regs = { c.regs with taddr := (i.tok .a).word } ∧ d.phase = .fetch c.win.addr 0 ∧
       (c.task.sigRetry ≠ some c.win.addr → d.status = c.status ∧ d.task.sigRetry = some c.win.addr) ∧
       (c.task.sigRetry = some c.win.addr → d.status = .halted ∧ d.haltCause = 0x0C ∧
         ∀ u, umbraOf t.mgmt.umbrae (s.cur.core / 8) = some u → u.stage ≠ .ok))) ∧
  ((∀ (f : FmtE) (s : State) (i : Inst) (h : Nat), Firing s f.gm [.a] i → ∀ hh : h < 4,
     s.curCtx.regs.streams[h].isOpen = false → (∀ k, ∀ hk : k < h, s.curCtx.regs.streams[k].isOpen = true) →
     Reaches (exec (.rngopen f) s) fun t =>
       let c := s.curCtx
       (t.ctx s.cur.core s.cur.ctx).regs =
         { c.regs with streams := c.regs.streams.set h { isOpen := true, key := (i.tok .a).word } } ∧
       (t.ctx s.cur.core s.cur.ctx).win =
         { (c.win.issue s.cur.idx) with committed := true }.emit s.cur.idx (targetList f.t) (.scalar (BitVec.ofNat 64 h))
           (dueAt s 1)) ∧
   (∀ (f : FmtE) (s : State) (i : Inst), Firing s f.gm [.a] i → (∀ k, ∀ hk : k < 4, s.curCtx.regs.streams[k].isOpen = true) →
     exec (.rngopen f) s = .next (s.withWin fun w =>
       { (w.issue s.cur.idx) with committed := true }.emit s.cur.idx (targetList f.t) (.scalar (BitVec.allOnes 64))
         (dueAt s 1))) ∧
   (∀ (f : FmtE) (s : State) (i : Inst), Firing s f.gm [.a] i → ∀ h : (i.tok .a).word.toNat < 4,
     s.curCtx.regs.streams[(i.tok .a).word.toNat].isOpen = true →
     Reaches (exec (.rngclose f) s) fun t =>
       let c := s.curCtx
       (t.ctx s.cur.core s.cur.ctx).regs = { c.regs with streams := c.regs.streams.set (i.tok .a).word.toNat {} } ∧
       (t.ctx s.cur.core s.cur.ctx).win =
         { (c.win.issue s.cur.idx) with committed := true }.emit s.cur.idx (targetList f.t) (.scalar 1) (dueAt s 1)) ∧
   (∀ (f : FmtE) (s : State) (i : Inst), Firing s f.gm [.a] i →
     (∀ h : (i.tok .a).word.toNat < 4, s.curCtx.regs.streams[(i.tok .a).word.toNat].isOpen = false) →
     exec (.rngclose f) s = .next (s.withWin fun w =>
       { (w.issue s.cur.idx) with committed := true }.emit s.cur.idx (targetList f.t) (.scalar 0) (dueAt s 1))) ∧
   (∀ (f : FmtS) (s : State) (i : Inst), Firing s f.gm [.a, .b] i → ∀ h : (i.tok .a).word.toNat < 4,
     s.curCtx.regs.streams[(i.tok .a).word.toNat].isOpen = true →
     Emits s (exec (.rngdraw f) s) (targetList f.t)
       (.scalar (rngValue s.curCtx.regs.streams[(i.tok .a).word.toNat].key (i.tok .b).word)) 2) ∧
   (∀ (f : FmtS) (s : State) (i : Inst), Firing s f.gm [.a, .b] i → TrapReady s → Mem.wf s.mem = true →
     (∀ h : (i.tok .a).word.toNat < 4, s.curCtx.regs.streams[(i.tok .a).word.toNat].isOpen = false) →
     Reaches (exec (.rngdraw f) s) (TrapTaken s 0x02 (i.tok .a).word)))

/-- R79 and R82: FORK with room in the deque advances the core's sequence counter, appends a record with the new GTID, the
entry, the arguments, the join word, the domain of block start and the parent's launch, adds a live task to that launch,
and emits the GTID; with 64 records in the deque it emits 0 and creates nothing.
R85: PAUSE issues at once and is due to fire Z × 256 clocks later. -/
def Obligations.ForkAndPause : Prop :=
  ((∀ (f : FmtE) (s : State) (i : Inst), Firing s f.gm [.a, .b, .c] i → (s.core s.cur.core).deque.length < 64 →
     Reaches (exec (.fork f) s) fun t =>
       let k := s.core s.cur.core
       let g := BitVec.ofNat 64 (2 ^ 51 * s.logical s.cur.core + (k.seq + 1).toNat)
       (t.core s.cur.core).seq = k.seq + 1 ∧
       (t.core s.cur.core).deque = k.deque ++ [{
         entry := (i.tok .a).word, arg0 := (i.tok .b).word, arg1 := f.z.signExtend 64, join := (i.tok .c).word, gtid := g,
         domain := s.curCtx.win.snap.regs.stealdom, stamp := s.clk.setWidth 48, launch := s.curCtx.task.launch }] ∧
       (t.ctx s.cur.core s.cur.ctx).win =
         { (s.curCtx.win.issue s.cur.idx) with committed := true }.emit s.cur.idx (targetList f.t) (.scalar g) (dueAt s 1) ∧
       (∀ l, s.launch? s.curCtx.task.launch = some l →
         t.launch? s.curCtx.task.launch = some { l with live := l.live + 1 }) ∧ t.mem = s.mem) ∧
   (∀ (f : FmtE) (s : State) (i : Inst), Firing s f.gm [.a, .b, .c] i → 64 ≤ (s.core s.cur.core).deque.length →
     Reaches (exec (.fork f) s) fun t => t.cores = s.cores ∧ t.launches = s.launches ∧
       (t.ctx s.cur.core s.cur.ctx).win =
         { (s.curCtx.win.issue s.cur.idx) with committed := true }.emit s.cur.idx (targetList f.t) (.scalar 0) (dueAt s 1))) ∧
  (∀ (f : FmtS) (s : State) (i : Inst), Firing s f.gm [] i →
     exec (.pause f) s = .next (s.withWin fun w =>
       { (w.issue s.cur.idx) with pauses := w.pauses ++ [(s.cur.idx, s.clk.toNat + f.z.toNat * 256)] }))

/-! ### Floating point -/

/-- R135, R136 and R67: FADD, FSUB, FMUL and FMA (latency 1) and FDIV and FSQRT (latency 3) decode their operands in the
format WD names, and emit the exact result brought into that format by one rounding under the mode of XF, or of FMODE as
it stood at block start.
R132 and R136: NaNs, infinities and zeros of FADD, FSUB, FMUL, FMA, FDIV and FSQRT. Where an operand is a NaN, the result
is the pattern of the NaN operand with the smallest payload, of the earliest such slot, its quiet bit set, in each format;
else an operation that has no value, as ∞ − ∞, 0 · ∞, 0 / 0, ∞ / ∞ or the root of a negative value, gives the quiet NaN with its
sign cleared and payload 0. An infinite operand gives the infinity, or the zero, of the sign that the operation gives; a sum
that is exactly 0 of operands of unlike sign is +0, under RDN −0 (R130). -/
def Obligations.FloatArithmeticResults : Prop :=
  ((∀ (f : FmtA) (s : State) (i : Inst), Firing s f.gm [.a, .b] i →
     let g := if f.wd = .d then f64 else f32
     let x := g.decode ((i.tok .a).word.toNat % 2 ^ g.width)
     let y := g.decode ((i.tok .b).word.toNat % 2 ^ g.width)
     let m := rmode f.xf.toNat s.curCtx.win.snap.regs.fmode
     let ts := targetList f.t
     let out := fun (v : Nat) => Token.scalar (BitVec.ofNat 64 v)
     Emits s (exec (.fadd f) s) ts (out (g.ofVal m false (fvAdd m 0 x y))) ∧
     Emits s (exec (.fsub f) s) ts (out (g.ofVal m false (fvSub m 0 x y))) ∧
     Emits s (exec (.fmul f) s) ts (out (g.ofVal m false (fvMul 0 x y))) ∧
     Emits s (exec (.fdiv f) s) ts (out (g.div m false x y)) 3) ∧
   (∀ (f : FmtA) (s : State) (i : Inst), Firing s f.gm [.a] i →
     let g := if f.wd = .d then f64 else f32
     Emits s (exec (.fsqrt f) s) (targetList f.t) (.scalar (BitVec.ofNat 64
       (g.sqrt (rmode f.xf.toNat s.curCtx.win.snap.regs.fmode) false (g.decode ((i.tok .a).word.toNat % 2 ^ g.width))))) 3) ∧
   (∀ (f : FmtA) (s : State) (i : Inst), Firing s f.gm [.a, .b, .c] i →
     let g := if f.wd = .d then f64 else f32
     let m := rmode f.xf.toNat s.curCtx.win.snap.regs.fmode
     let at_ := fun x => g.decode ((i.tok x).word.toNat % 2 ^ g.width)
     Emits s (exec (.fma f) s) (targetList f.t)
       (.scalar (BitVec.ofNat 64 (g.ofVal m false (fvFma m 0 (at_ .a) (at_ .b) (at_ .c))))))) ∧
  ((∀ g ∈ floatFmts, ∀ (md : Rmode) (p q r : Nat), p < 2 ^ g.width → q < 2 ^ g.width → r < 2 ^ g.width →
     let x := g.decode p
     let y := g.decode q
     let z := g.decode r
     (x.isNan = true ∨ y.isNan = true →
       Survives g [p, q] (g.ofVal md false (fvAdd md 0 x y)) ∧ Survives g [p, q] (g.ofVal md false (fvSub md 0 x y)) ∧
       Survives g [p, q] (g.ofVal md false (fvMul 0 x y)) ∧ Survives g [p, q] (g.div md false x y)) ∧
     (x.isNan = true ∨ y.isNan = true ∨ z.isNan = true → Survives g [p, q, r] (g.ofVal md false (fvFma md 0 x y z))) ∧
     (x.isNan = true → Survives g [p] (g.sqrt md false x))) ∧
   (∀ g n, (g, n) ∈ [(f64, 0x7FF8000000000000), (f32, 0x7FC00000)] → ∀ (md : Rmode) (s t : Bool) (x y z : FVal),
     let gives := fun (v : FVal) => g.ofVal md false v = n
     gives (fvAdd md 0 (.inf s) (.inf !s)) ∧ gives (fvSub md 0 (.inf s) (.inf s)) ∧
     (x.isZero = true → gives (fvMul 0 (.inf s) x) ∧ gives (fvMul 0 x (.inf s))) ∧
     g.div md false (.inf s) (.inf t) = n ∧ (x.isZero = true → y.isZero = true → g.div md false x y = n) ∧
     g.sqrt md false (.inf true) = n ∧ (∀ m e, 0 < m → g.sqrt md false (.fin true m e) = n) ∧
     (z.isNan = false →
       (x.isZero = true → gives (fvFma md 0 (.inf s) x z) ∧ gives (fvFma md 0 x (.inf s) z)) ∧
       (x.isNan = false → y.isNan = false → fvMul 0 x y = .inf s → z = .inf !s → gives (fvFma md 0 x y z)))) ∧
   (∀ g ∈ [f64, f32], ∀ (md : Rmode) (pay : Nat) (s t : Bool) (x y : FVal), x.isNan = false →
     (∀ m e, fvAdd md pay (.inf s) (.fin t m e) = .inf s ∧ fvAdd md pay (.fin t m e) (.inf s) = .inf s ∧
       g.div md false (.fin t m e) (.inf s) = g.signBit (t ^^ s) ∧
       g.div md false (.inf s) (.fin t m e) = g.inf (s ^^ t)) ∧
     fvAdd md pay (.inf s) (.inf s) = .inf s ∧
     (x.isZero = false → fvMul pay (.inf s) x = .inf (s ^^ x.neg) ∧ fvMul pay x (.inf s) = .inf (x.neg ^^ s)) ∧
     (∀ m e, 0 < m → y.isZero = true → g.div md false (.fin s m e) y = g.inf (s ^^ y.neg)) ∧
     (∀ m e, 0 < m → y.isZero = true → g.div md false y (.fin s m e) = g.signBit (y.neg ^^ s)) ∧
     g.sqrt md false (.inf false) = g.inf false ∧ (x.isZero = true → g.sqrt md false x = g.signBit x.neg) ∧
     ∀ a b, x.rat? = some a → y.rat? = some b → a + b = 0 →
       (fvAdd md pay x y).neg = if x.neg = y.neg then x.neg else md == .rdn))

/-- R136: the value that is rounded is exact: the sum, difference, product, and product plus addend of finite operands are
the rational ones, in every format and mode.
R136: FDIV of finite operands that are not zero rounds their quotient, and FSQRT of a positive finite operand rounds
its root: the results toward minus and plus infinity are the representable values next below and above it. -/
def Obligations.FloatExactValues : Prop :=
  (∀ (md : Rmode) (pay : Nat) (a b c : FVal) (x y z : Rat), a.rat? = some x → b.rat? = some y → c.rat? = some z →
     (fvAdd md pay a b).rat? = some (x + y) ∧ (fvSub md pay a b).rat? = some (x - y) ∧
     (fvMul pay a b).rat? = some (x * y) ∧ (fvFma md pay a b c).rat? = some (x * y + z)) ∧
  (∀ g ∈ floatFmts,
     (∀ (md : Rmode) (s t : Bool) (m n : Nat) (e k : Int), 0 < m → 0 < n →
       g.div md false (.fin s m e) (.fin t n k) = g.round md false (s != t) m n (e - k) ∧
       ratOf (s != t) m (e - k) / n = ratOf s m e / ratOf t n k) ∧
     (∀ (p m : Nat) (e : Int), p < 2 ^ g.width → g.decode p = .fin false m e → 0 < m →
       let x := ratOf false m e
       ∀ d u : Rat, (g.decode (g.sqrt .rdn false (g.decode p))).rat? = some d →
         (g.decode (g.sqrt .rup false (g.decode p))).rat? = some u →
         d * d ≤ x ∧ x ≤ u * u ∧ 0 ≤ d ∧
         ∀ k y, k < 2 ^ g.width → (g.decode k).rat? = some y → 0 ≤ y → (y * y ≤ x → y ≤ d) ∧ (x ≤ y * y → u ≤ y)))

/-- R130: rounding a nonzero value ±p/q·2^e toward minus infinity gives the greatest representable value not above it,
toward plus infinity the least not below it, toward zero the one of the two nearer zero, and to nearest one of the two
that no other is nearer than, on a tie the one whose last fraction bit is 0; where both are finite. No rounding changes
the sign. A magnitude up to the largest finite value B rounds to a finite value. R130 step 3 and R131: one above B gives B
toward zero and the infinity away from zero, and to nearest B below half a step above it (at half a step too where the last
fraction bit of B is 0) and the infinity from there on; E4M3 has its NaN in the infinity's place; an FP8 format that saturates
gives B in every mode, and saturation changes nothing else.
R124, R125 and R130: a pattern that is no NaN, brought into its own format, is itself in every mode: each is
representable, so it rounds to itself, and a zero keeps its sign. -/
def Obligations.RoundingIsCorrect : Prop :=
  (∀ g ∈ floatFmts, ∀ (s : Bool) (p q : Nat) (e : Int), 0 < p → 0 < q →
     let x := ratOf s p e / q
     let v := fun md => (g.decode (g.round md false s p q e)).rat?
     (∀ d u : Rat, v .rdn = some d → v .rup = some u →
       d ≤ x ∧ x ≤ u ∧
       (∀ k y, k < 2 ^ g.width → (g.decode k).rat? = some y → (y ≤ x → y ≤ d) ∧ (x ≤ y → u ≤ y)) ∧
       v .rtz = some (if s then u else d) ∧
       (∃ r, v .rne = some r ∧ (r = d ∨ r = u) ∧ (r = d → x - d ≤ u - x) ∧ (r = u → u - x ≤ x - d)) ∧
       (d < u → x - d = u - x → g.round .rne false s p q e % 2 = 0)) ∧
     (∀ md sat, (g.decode (g.round md sat s p q e)).neg = s) ∧
     ∀ A B : Rat, (g.decode (g.maxFin - 1)).rat? = some A → (g.decode g.maxFin).rat? = some B →
       let y : Rat := if s then -x else x
       let top := g.signBit s + g.maxFin
       let past := g.signBit s + if g.e4m3 then 0x7F else g.maxFin + 1
       (y ≤ B → ∀ md sat, (v md).isSome = true ∧ g.round md sat s p q e = g.round md false s p q e) ∧
       (B < y →
         (∀ sat, (g.fp8 = false ∨ sat = false) → g.round .rtz sat s p q e = top ∧
           g.round .rup sat s p q e = (if s then top else past) ∧ g.round .rdn sat s p q e = (if s then past else top) ∧
           g.round .rne sat s p q e =
             (if y - B < (B - A) / 2 ∨ (y - B = (B - A) / 2 ∧ g.maxFin % 2 = 0) then top else past)) ∧
         (g.fp8 = true → ∀ md, g.round md true s p q e = top))) ∧
  (∀ g ∈ floatFmts, ∀ (md : Rmode) (p : Nat), p < 2 ^ g.width → (g.decode p).isNan = false →
     g.ofVal md false (g.decode p) = p)

/-- R137 to R139: FNEG inverts and FABS clears the sign bit of any pattern; FCEQ, FCLT and FCLE compare the exact values of
operands, infinities among them, with +0 = −0, and FCUN says whether an operand is a NaN, which makes the other three 0. FMIN
and FMAX emit the lesser and the greater operand, −0 being less than +0, unrounded; the operand that is no NaN where one is; and
the result of R132 where both are. -/
def Obligations.FloatSignCompareResults : Prop :=
  (∀ (f : FmtA) (s : State) (i : Inst), Firing s f.gm [.a] i →
    let ts := targetList f.t
    (f.wd = .d → Emits s (exec (.fneg f) s) ts (.scalar ((i.tok .a).word ^^^ (1#64 <<< 63))) ∧
      Emits s (exec (.fabs f) s) ts (.scalar ((i.tok .a).word &&& ~~~(1#64 <<< 63)))) ∧
    (f.wd = .w → Emits s (exec (.fneg f) s) ts (unsigned (i.low .a 32 ^^^ (1#32 <<< 31))) ∧
      Emits s (exec (.fabs f) s) ts (unsigned (i.low .a 32 &&& ~~~(1#32 <<< 31))))) ∧
  (∀ (f : FmtA) (s : State) (i : Inst), Firing s f.gm [.a, .b] i →
    let g := if f.wd = .d then f64 else f32
    let p := (i.tok .a).word.toNat % 2 ^ g.width
    let q := (i.tok .b).word.toNat % 2 ^ g.width
    let ts := targetList f.t
    let nan := (g.decode p).isNan || (g.decode q).isNan
    Emits s (exec (.fcun f) s) ts (predTok nan) ∧
    (nan = true → Emits s (exec (.fceq f) s) ts (predTok false) ∧ Emits s (exec (.fclt f) s) ts (predTok false) ∧
      Emits s (exec (.fcle f) s) ts (predTok false)) ∧
    (∀ x y : Rat, (g.decode p).rat? = some x → (g.decode q).rat? = some y →
      Emits s (exec (.fceq f) s) ts (predTok (decide (x = y))) ∧ Emits s (exec (.fclt f) s) ts (predTok (decide (x < y))) ∧
      Emits s (exec (.fcle f) s) ts (predTok (decide (x ≤ y)))) ∧
    (let x := g.decode p
     let y := g.decode q
     let compares := fun (eq lt le : Bool) => Emits s (exec (.fceq f) s) ts (predTok eq) ∧
       Emits s (exec (.fclt f) s) ts (predTok lt) ∧ Emits s (exec (.fcle f) s) ts (predTok le)
     let picks := fun (lo hi : Nat) => Emits s (exec (.fmin f) s) ts (.scalar (BitVec.ofNat 64 lo)) ∧
       Emits s (exec (.fmax f) s) ts (.scalar (BitVec.ofNat 64 hi))
     (x.isNan = false → y.isNan = false →
       (x.below y ∨ y.below x ∨ p = q) ∧ (x.below y → picks p q) ∧ (y.below x → picks q p) ∧ (p = q → picks p p) ∧
       (x.isZero = true → y.isZero = true → compares true false true) ∧ (p = q → compares true false true) ∧
       (¬(x.isZero = true ∧ y.isZero = true) →
         (x.below y → compares false true true) ∧ (y.below x → compares false false false))) ∧
     (x.isNan = true → y.isNan = false → picks q q) ∧ (x.isNan = false → y.isNan = true → picks p p) ∧
     (x.isNan = true → y.isNan = true → ∃ v, Survives g [p, q] v ∧ picks v v)))

/-- R140 and R141: CVT reads a value of the source tag Z[3:0] and emits it in the target tag XF under the mode of Z[7:4]
or FMODE: a value of its own tag unchanged, a float rounded into a float format, a NaN as integer 0, and a finite value as
the clamped integer and an infinity as the least or the greatest one (Table 10), to integer, FX32 and TRI targets; signed
patterns extended with their sign, others with zeros. -/
def Obligations.ConversionResult : Prop :=
  ∀ (f : FmtA) (s : State) (i : Inst), Firing s f.gm [.a] i →
    let src := f.z.toNat % 16
    let dst := f.xf.toNat
    let m := rmode (f.z.toNat / 16 % 16) s.curCtx.win.snap.regs.fmode
    let sat := s.curCtx.win.snap.regs.fmode.getLsbD 2
    let p := (i.tok .a).word.toNat % 2 ^ tagBits src
    let x := decodeTag src p
    let ts := targetList f.t
    (src = dst → Emits s (exec (.cvt f) s) ts (.scalar (tagWord dst p))) ∧
    (src ≠ dst → ∀ g, floatOf dst = some g → Emits s (exec (.cvt f) s) ts (.scalar (BitVec.ofNat 64 (g.ofVal m sat x)))) ∧
    (src ≠ dst → x.isNan = true → floatOf dst = none → Emits s (exec (.cvt f) s) ts (.scalar 0)) ∧
    (src ≠ dst → ∀ sg mm e, x = .fin sg mm e → 1 ≤ dst → dst ≤ 4 →
      Emits s (exec (.cvt f) s) ts (.scalar (toWord (clampW (tagBits dst) (roundInt m sg mm e 0))))) ∧
    (src ≠ dst → ∀ sg mm e, x = .fin sg mm e → dst = 11 →
      Emits s (exec (.cvt f) s) ts (.scalar (toWord (clampW 32 (roundInt m sg mm e 16))))) ∧
    (src ≠ dst → ∀ sg mm e, x = .fin sg mm e → dst = 12 →
      Emits s (exec (.cvt f) s) ts (.scalar (BitVec.ofNat 64 (intToTri (clampW 64 (roundInt m sg mm e 0)))))) ∧
    (src ≠ dst → ∀ sg, x = .inf sg →
      let end_ := fun (w : Nat) => if sg then -(2 ^ (w - 1) : Int) else 2 ^ (w - 1) - 1
      (1 ≤ dst → dst ≤ 4 → Emits s (exec (.cvt f) s) ts (.scalar (toWord (end_ (tagBits dst))))) ∧
      (dst = 11 → Emits s (exec (.cvt f) s) ts (.scalar (toWord (end_ 32)))) ∧
      (dst = 12 → Emits s (exec (.cvt f) s) ts (.scalar (BitVec.ofNat 64 (intToTri (end_ 64))))))

/-! ### Vector forms -/

/-- R145 and R147: the lane-wise forms on I8, I16, I32 and I64 wrap modulo 2^w in every lane; a lane is null exactly when
it is null in an operand.
R145 and R147: the lane-wise forms on FX32 clamp to 32 bits; a product is rounded from its 32 fraction bits to 16 under
FMODE before the clamp. -/
def Obligations.VectorIntegerAndFixedPointLanes : Prop :=
  (∀ (f : FmtA) (s : State) (i : Inst), 1 ≤ f.xf.toNat → f.xf.toNat ≤ 4 →
     let w := tagBits f.xf.toNat
     let a := i.lane .a w
     let b := i.lane .b w
     let c := i.lane .c w
     let ts := targetList f.t
     (Firing s f.gm [.a, .b] i → tagIs f.xf (i.tok .a) = true → tagIs f.xf (i.tok .b) = true →
       let dead := fun k => nullAt (i.tok .a) k || nullAt (i.tok .b) k
       EmitsLanes s (exec (.vadd f) s) ts f.xf 1 w dead (fun k => a k + b k) ∧
       EmitsLanes s (exec (.vsub f) s) ts f.xf 1 w dead (fun k => a k - b k) ∧
       EmitsLanes s (exec (.vmul f) s) ts f.xf 1 w dead (fun k => a k * b k) ∧
       EmitsLanes s (exec (.vmin f) s) ts f.xf 1 w dead (fun k => if (a k).sle (b k) then a k else b k) ∧
       EmitsLanes s (exec (.vmax f) s) ts f.xf 1 w dead (fun k => if (a k).sle (b k) then b k else a k)) ∧
     (Firing s f.gm [.a] i → tagIs f.xf (i.tok .a) = true →
       EmitsLanes s (exec (.vabs f) s) ts f.xf 1 w (nullAt (i.tok .a)) (fun k => if (a k).msb then -a k else a k) ∧
       EmitsLanes s (exec (.vneg f) s) ts f.xf 1 w (nullAt (i.tok .a)) (fun k => -a k)) ∧
     (Firing s f.gm [.a, .b, .c] i → tagIs f.xf (i.tok .a) = true → tagIs f.xf (i.tok .b) = true →
       tagIs f.xf (i.tok .c) = true →
       EmitsLanes s (exec (.vfma f) s) ts f.xf 1 w
         (fun k => nullAt (i.tok .a) k || nullAt (i.tok .b) k || nullAt (i.tok .c) k) (fun k => a k * b k + c k))) ∧
  (∀ (f : FmtA) (s : State) (i : Inst), f.xf = 11 →
     let m := rmodeOf (s.curCtx.win.snap.regs.fmode.toNat % 4)
     let a := fun k => (i.lane .a 32 k).toInt
     let b := fun k => (i.lane .b 32 k).toInt
     let c := fun k => (i.lane .c 32 k).toInt
     let out := fun v => BitVec.ofInt 32 (max (-(2 ^ 31)) (min (2 ^ 31 - 1) v))
     let shift := fun v : Int => roundInt m (decide (v < 0)) v.natAbs (-16) 0
     let ts := targetList f.t
     (Firing s f.gm [.a, .b] i → tagIs 11 (i.tok .a) = true → tagIs 11 (i.tok .b) = true →
       let dead := fun k => nullAt (i.tok .a) k || nullAt (i.tok .b) k
       EmitsLanes s (exec (.vadd f) s) ts 11 1 32 dead (fun k => out (a k + b k)) ∧
       EmitsLanes s (exec (.vsub f) s) ts 11 1 32 dead (fun k => out (a k - b k)) ∧
       EmitsLanes s (exec (.vmul f) s) ts 11 1 32 dead (fun k => out (shift (a k * b k))) ∧
       EmitsLanes s (exec (.vmin f) s) ts 11 1 32 dead (fun k => out (min (a k) (b k))) ∧
       EmitsLanes s (exec (.vmax f) s) ts 11 1 32 dead (fun k => out (max (a k) (b k)))) ∧
     (Firing s f.gm [.a] i → tagIs 11 (i.tok .a) = true →
       EmitsLanes s (exec (.vabs f) s) ts 11 1 32 (nullAt (i.tok .a)) (fun k => out (a k).natAbs) ∧
       EmitsLanes s (exec (.vneg f) s) ts 11 1 32 (nullAt (i.tok .a)) (fun k => out (-a k))) ∧
     (Firing s f.gm [.a, .b, .c] i → tagIs 11 (i.tok .a) = true → tagIs 11 (i.tok .b) = true → tagIs 11 (i.tok .c) = true →
       EmitsLanes s (exec (.vfma f) s) ts 11 1 32
         (fun k => nullAt (i.tok .a) k || nullAt (i.tok .b) k || nullAt (i.tok .c) k)
         (fun k => out (shift (a k * b k + c k * 2 ^ 16)))))

/-- R145, R147 and R67: the lane-wise forms on floats do in every lane what the scalar forms do, under FMODE; VDIV and
VSQRT take 3 slots. -/
def Obligations.VectorFloatLanes : Prop :=
  ∀ (f : FmtA) (s : State) (i : Inst) (g : FloatFmt), floatOf f.xf.toNat = some g →
    let w := tagBits f.xf.toNat
    let m := rmodeOf (s.curCtx.win.snap.regs.fmode.toNat % 4)
    let a := fun k => (i.lane .a w k).toNat
    let b := fun k => (i.lane .b w k).toNat
    let c := fun k => (i.lane .c w k).toNat
    let top := BitVec.twoPow w (w - 1)
    let ts := targetList f.t
    (Firing s f.gm [.a, .b] i → tagIs f.xf (i.tok .a) = true → tagIs f.xf (i.tok .b) = true →
      let dead := fun k => nullAt (i.tok .a) k || nullAt (i.tok .b) k
      let out := fun (o : Instr) (lat : Nat) (v : Nat → Nat) =>
        EmitsLanes s (exec o s) ts f.xf lat w dead (fun k => BitVec.ofNat w (v k))
      out (.vadd f) 1 (fun k => g.ofVal m false (fvAdd m 0 (g.decode (a k)) (g.decode (b k)))) ∧
      out (.vsub f) 1 (fun k => g.ofVal m false (fvSub m 0 (g.decode (a k)) (g.decode (b k)))) ∧
      out (.vmul f) 1 (fun k => g.ofVal m false (fvMul 0 (g.decode (a k)) (g.decode (b k)))) ∧
      out (.vdiv f) 3 (fun k => g.div m false (g.decode (a k)) (g.decode (b k))) ∧
      out (.vmin f) 1 (fun k => g.minMax false (a k) (b k)) ∧
      out (.vmax f) 1 (fun k => g.minMax true (a k) (b k))) ∧
    (Firing s f.gm [.a] i → tagIs f.xf (i.tok .a) = true →
      EmitsLanes s (exec (.vsqrt f) s) ts f.xf 3 w (nullAt (i.tok .a))
        (fun k => BitVec.ofNat w (g.sqrt m false (g.decode (a k)))) ∧
      EmitsLanes s (exec (.vabs f) s) ts f.xf 1 w (nullAt (i.tok .a)) (fun k => i.lane .a w k &&& ~~~top) ∧
      EmitsLanes s (exec (.vneg f) s) ts f.xf 1 w (nullAt (i.tok .a)) (fun k => i.lane .a w k ^^^ top)) ∧
    (Firing s f.gm [.a, .b, .c] i → tagIs f.xf (i.tok .a) = true → tagIs f.xf (i.tok .b) = true →
      tagIs f.xf (i.tok .c) = true →
      EmitsLanes s (exec (.vfma f) s) ts f.xf 1 w
        (fun k => nullAt (i.tok .a) k || nullAt (i.tok .b) k || nullAt (i.tok .c) k)
        (fun k => BitVec.ofNat w (g.ofVal m false (fvFma m 0 (g.decode (a k)) (g.decode (b k)) (g.decode (c k))))))

/-- R123 and Table 2 of R146: a vector form whose operand has a lane that is not null and another tag than its "Checks"
column asks takes FMTX (cause 0x05) with TADDR 0.
R148 and R149: VCMP emits a mask with one bit for each lane, which holds the condition XF of lanes that are not null,
and of a lane null in an operand only condition nl; VSEL chooses lanes by a mask; VMASK makes lanes null. -/
def Obligations.VectorTagTrapAndSelect : Prop :=
  (∀ (f : FmtA) (s : State) (i : Inst), TrapReady s → Mem.wf s.mem = true →
     let hit := fun (o : Instr) => Reaches (exec o s) (TrapTaken s 0x05 0)
     (Firing s f.gm [.a, .b] i → tagIs f.xf (i.tok .a) = false ∨ tagIs f.xf (i.tok .b) = false →
       hit (.vadd f) ∧ hit (.vsub f) ∧ hit (.vmul f) ∧ hit (.vmin f) ∧ hit (.vmax f) ∧ hit (.vdiv f) ∧ hit (.vtmul f) ∧
       hit (.vtadd f) ∧ hit (.vdot f)) ∧
     (Firing s f.gm [.a] i → tagIs f.xf (i.tok .a) = false →
       hit (.vabs f) ∧ hit (.vneg f) ∧ hit (.vsqrt f) ∧ hit (.vred f)) ∧
     (Firing s f.gm [.a, .b, .c] i →
       tagIs f.xf (i.tok .a) = false ∨ tagIs f.xf (i.tok .b) = false ∨ tagIs f.xf (i.tok .c) = false → hit (.vfma f)) ∧
     (Firing s f.gm [.a, .b, .c] i → tagIs f.xf (i.tok .a) = false ∨ tagIs f.xf (i.tok .b) = false → hit (.vsel f)) ∧
     (Firing s f.gm [.a, .b] i → tagIs f.xf (i.tok .a) = false → hit (.vscale f)) ∧
     (Firing s f.gm [.a, .b] i → notNone (i.tok .a) = false → hit (.vcmp f) ∧ hit (.vmask f) ∧ hit (.vins f)) ∧
     (Firing s f.gm [.a, .b] i → notNone (i.tok .b) = false → hit (.vcmp f)) ∧
     (Firing s f.gm [.a, .b] i → allNull (i.tok .a) = false → allNull (i.tok .b) = false → (i.tok .a).tag ≠ (i.tok .b).tag →
       hit (.vcmp f)) ∧
     (Firing s f.gm [.a] i → notNone (i.tok .a) = false → hit (.vcvt f) ∧ hit (.vext f)) ∧
     ∀ g : FmtM,
       (Firing s g.gm [.a, .b] i → offsetTag (i.tok .b) = false → hit (.vldg g)) ∧
       (Firing s g.gm [.a, .b, .c] i → offsetTag (i.tok .c) = false → hit (.vsts g))) ∧
  ((∀ (f : FmtA) (s : State) (i : Inst), Firing s f.gm [.a, .b] i →
     notNone (i.tok .a) = true → notNone (i.tok .b) = true → (i.tok .a).tag = (i.tok .b).tag →
     let tag := (i.tok .a).tag.toNat
     let w := tagBits tag
     let a := i.lane .a w
     let b := i.lane .b w
     ∃ v : Word, Emits s (exec (.vcmp f) s) (targetList f.t) (.scalar v) ∧ (∀ k, 256 / w ≤ k → v.getLsbD k = false) ∧
       ∀ k, k < 256 / w →
         let dead := nullAt (i.tok .a) k || nullAt (i.tok .b) k
         (dead = true → v.getLsbD k = decide (f.xf = 9)) ∧
         (dead = false → f.xf = 9 → v.getLsbD k = false) ∧
         (dead = false → 1 ≤ tag ∧ tag ≤ 4 ∨ tag = 11 →
           (f.xf = 0 → v.getLsbD k = (a k == b k)) ∧ (f.xf = 1 → v.getLsbD k = (a k != b k)) ∧
           (f.xf = 2 → v.getLsbD k = (a k).slt (b k)) ∧ (f.xf = 3 → v.getLsbD k = (a k).sle (b k)) ∧
           (f.xf = 4 → v.getLsbD k = (b k).slt (a k)) ∧ (f.xf = 5 → v.getLsbD k = (b k).sle (a k)) ∧
           (f.xf = 6 → v.getLsbD k = (a k).ult (b k)) ∧ (f.xf = 7 → v.getLsbD k = (a k).ule (b k)) ∧
           (f.xf = 8 → v.getLsbD k = false)) ∧
         (dead = false → tag = 12 →
           let x := triToInt (a k).toNat
           let y := triToInt (b k).toNat
           (f.xf = 0 → v.getLsbD k = decide (x = y)) ∧ (f.xf = 1 → v.getLsbD k = decide (x ≠ y)) ∧
           (f.xf = 2 → v.getLsbD k = decide (x < y)) ∧ (f.xf = 3 → v.getLsbD k = decide (x ≤ y)) ∧
           (f.xf = 4 → v.getLsbD k = decide (y < x)) ∧ (f.xf = 5 → v.getLsbD k = decide (y ≤ x)) ∧
           (f.xf = 6 → v.getLsbD k = (a k).ult (b k)) ∧ (f.xf = 7 → v.getLsbD k = (a k).ule (b k)) ∧
           (f.xf = 8 → v.getLsbD k = false)) ∧
         (dead = false → ∀ g, floatOf tag = some g →
           let p := g.decode (a k).toNat
           let q := g.decode (b k).toNat
           (f.xf = 8 → v.getLsbD k = (p.isNan || q.isNan)) ∧
           (p.isNan = true ∨ q.isNan = true →
             (f.xf = 1 ∨ f.xf = 6 ∨ f.xf = 7 → v.getLsbD k = true) ∧
             (f.xf = 0 ∨ f.xf = 2 ∨ f.xf = 3 ∨ f.xf = 4 ∨ f.xf = 5 → v.getLsbD k = false)) ∧
           ∀ x y : Rat, p.rat? = some x → q.rat? = some y →
             (f.xf = 0 → v.getLsbD k = decide (x = y)) ∧ (f.xf = 1 → v.getLsbD k = decide (x ≠ y)) ∧
             (f.xf = 2 ∨ f.xf = 6 → v.getLsbD k = decide (x < y)) ∧ (f.xf = 3 ∨ f.xf = 7 → v.getLsbD k = decide (x ≤ y)) ∧
             (f.xf = 4 → v.getLsbD k = decide (y < x)) ∧ (f.xf = 5 → v.getLsbD k = decide (y ≤ x)))) ∧
   (∀ (f : FmtA) (s : State) (i : Inst), Firing s f.gm [.a, .b, .c] i → 1 ≤ f.xf.toNat → f.xf.toNat ≤ 12 →
     tagIs f.xf (i.tok .a) = true → tagIs f.xf (i.tok .b) = true →
     let w := tagBits f.xf.toNat
     EmitsLanes s (exec (.vsel f) s) (targetList f.t) f.xf 1 w
       (fun k => nullAt (i.tok (if (i.tok .c).word.getLsbD k then .a else .b)) k)
       (fun k => if (i.tok .c).word.getLsbD k then i.lane .a w k else i.lane .b w k)) ∧
   (∀ (f : FmtA) (s : State) (i : Inst), Firing s f.gm [.a, .b] i → notNone (i.tok .a) = true →
     ∃ nulls, Emits s (exec (.vmask f) s) (targetList f.t) (.vector (i.tok .a).vbits (i.tok .a).tag nulls) ∧
       ∀ k, k < 256 / tagBits (i.tok .a).tag.toNat →
         nulls.getLsbD k = ((i.tok .a).nulls.getLsbD k || !(i.tok .b).word.getLsbD k)))

/-- R128 to R150: VTMUL and VTADD reconstruct the integers of their triad lanes and emit the triad of the exact product or
sum, and a null lane where it leaves the signed triad range.
R128 and R129: the triad of an integer of the signed range gives that integer back, and the channelwise product and
sum of two triads are the triads of the product and the sum, so long as those stay in the range. -/
def Obligations.VectorTriads : Prop :=
  (∀ (f : FmtA) (s : State) (i : Inst), Firing s f.gm [.a, .b] i → f.xf = 12 →
     tagIs 12 (i.tok .a) = true → tagIs 12 (i.tok .b) = true →
     let x := fun k => triToInt (i.lane .a 32 k).toNat
     let y := fun k => triToInt (i.lane .b 32 k).toNat
     let out := fun v : Int => decide (v < -536870400) || decide (536870399 < v)
     let dead := fun k => nullAt (i.tok .a) k || nullAt (i.tok .b) k
     EmitsLanes s (exec (.vtmul f) s) (targetList f.t) 12 1 32 (fun k => dead k || out (x k * y k))
       (fun k => BitVec.ofNat 32 (intToTri (x k * y k))) ∧
     EmitsLanes s (exec (.vtadd f) s) (targetList f.t) 12 1 32 (fun k => dead k || out (x k + y k))
       (fun k => BitVec.ofNat 32 (intToTri (x k + y k)))) ∧
  ((∀ v : Int, -536870400 ≤ v → v ≤ 536870399 → triToInt (intToTri v) = v) ∧
   (∀ x y : Int, -536870400 ≤ x → x ≤ 536870399 → -536870400 ≤ y → y ≤ 536870399 →
     triOp (· * ·) (intToTri x) (intToTri y) = intToTri (x * y) ∧
     triOp (· + ·) (intToTri x) (intToTri y) = intToTri (x + y)))

/-- R151 and R152: VCVT converts the lanes both tags have and leaves the others 0; a source of the target's own tag passes
unchanged. VSCALE rounds each lane times a power of two, the exponent clamped to ±2,048. -/
def Obligations.VectorConversion : Prop :=
  (∀ (f : FmtA) (s : State) (i : Inst), Firing s f.gm [.a] i → notNone (i.tok .a) = true → (i.tok .a).tag.toNat ≤ 12 →
    1 ≤ f.xf.toNat → f.xf.toNat ≤ 12 →
    let src := (i.tok .a).tag
    let w := tagBits f.xf.toNat
    let fm := s.curCtx.win.snap.regs.fmode
    let ts := targetList f.t
    (src = f.xf → Emits s (exec (.vcvt f) s) ts (i.tok .a)) ∧
    (src ≠ f.xf → EmitsLanes s (exec (.vcvt f) s) ts f.xf 1 w
      (fun k => decide (k < 256 / tagBits src.toNat) && (i.tok .a).nulls.getLsbD k)
      (fun k => if k < 256 / tagBits src.toNat then
        BitVec.ofNat w (convert src.toNat f.xf.toNat (rmodeOf (fm.toNat % 4)) (fm.getLsbD 2)
          (i.lane .a (tagBits src.toNat) k).toNat) else 0))) ∧
  (∀ (f : FmtA) (s : State) (i : Inst) (g : FloatFmt), Firing s f.gm [.a, .b] i → floatOf f.xf.toNat = some g →
    tagIs f.xf (i.tok .a) = true →
    let w := tagBits f.xf.toNat
    let fm := s.curCtx.win.snap.regs.fmode
    let e := max (-2048) (min 2048 (i.tok .b).word.toInt)
    EmitsLanes s (exec (.vscale f) s) (targetList f.t) f.xf 1 w (nullAt (i.tok .a)) (fun k =>
      BitVec.ofNat w (g.ofVal (rmodeOf (fm.toNat % 4)) (fm.getLsbD 2) (scaleVal (g.decode (i.lane .a w k).toNat) e))))

/-- R153 and R67: VDOT and VRED (latency 2) of integer lanes emit the exact sum modulo 2^64, null lanes counting 0; VRED of
FX32 clamps it to 32 bits; of float lanes they emit the tree sum of the leaves, null lanes counting +0.
R154 to R156 and R144: VPERM picks eight 32-bit pieces, VBCAST fills every lane, VEXT takes a lane out (a null lane as
the null token), VINS puts one in, VTAG names another tag; nullness follows the bytes where lanes change width. -/
def Obligations.VectorReductionsAndDataMovement : Prop :=
  (∀ (f : FmtA) (s : State) (i : Inst),
     let w := tagBits f.xf.toNat
     let n := 256 / w
     let a := fun k => (i.lane .a w k).toInt
     let b := fun k => (i.lane .b w k).toInt
     let sum := fun (v : Nat → Int) => ((List.range n).map v).foldl (· + ·) 0
     let ts := targetList f.t
     let acc := if f.xf = 5 then f64 else f32
     let total := fun (v : Nat → FVal) => BitVec.ofNat 64 (acc.ofVal .rne false
       (treeSum acc (log2Lanes n) 1 1 ((List.range n).map v)))
     (Firing s f.gm [.a, .b] i → tagIs f.xf (i.tok .a) = true → tagIs f.xf (i.tok .b) = true →
       let dead := fun k => nullAt (i.tok .a) k || nullAt (i.tok .b) k
       (1 ≤ f.xf.toNat → f.xf.toNat ≤ 4 → Emits s (exec (.vdot f) s) ts
         (.scalar (BitVec.ofInt 64 (sum fun k => if dead k then 0 else a k * b k))) 2) ∧
       ∀ g, floatOf f.xf.toNat = some g → Emits s (exec (.vdot f) s) ts (.scalar (total fun k =>
         if dead k then .fin false 0 0 else acc.decode (acc.ofVal .rne false (fvMul (genPayload acc (k / 2) 0)
           (g.decode (i.lane .a w k).toNat) (g.decode (i.lane .b w k).toNat))))) 2) ∧
     (Firing s f.gm [.a] i → tagIs f.xf (i.tok .a) = true →
       (1 ≤ f.xf.toNat → f.xf.toNat ≤ 4 → Emits s (exec (.vred f) s) ts
         (.scalar (BitVec.ofInt 64 (sum fun k => if nullAt (i.tok .a) k then 0 else a k))) 2) ∧
       (f.xf = 11 → Emits s (exec (.vred f) s) ts (.scalar (BitVec.ofInt 64
         (max (-(2 ^ 31)) (min (2 ^ 31 - 1) (sum fun k => if nullAt (i.tok .a) k then 0 else a k))))) 2) ∧
       ∀ g, floatOf f.xf.toNat = some g → Emits s (exec (.vred f) s) ts (.scalar (total fun k =>
         if nullAt (i.tok .a) k then .fin false 0 0 else g.decode (i.lane .a w k).toNat)) 2)) ∧
  ((∀ (f : FmtA) (s : State) (i : Inst), Firing s f.gm [.a] i →
     let ts := targetList f.t
     let src := fun p => (f.z.toNat >>> (3 * p)) % 8
     (∃ bits nulls, Emits s (exec (.vperm f) s) ts (.vector bits (i.tok .a).tag nulls) ∧
       (∀ p, p < 8 → bits.extractLsb' (32 * p) 32 = i.lane .a 32 (src p)) ∧
       ∀ k, k < 256 / tagBits (i.tok .a).tag.toNat → (nulls.getLsbD k = true ↔
         ∃ j, j < 32 ∧ 8 * j / tagBits (i.tok .a).tag.toNat = k ∧
           (i.tok .a).nulls.getLsbD (8 * (4 * src (j / 4) + j % 4) / tagBits (i.tok .a).tag.toNat) = true)) ∧
     (∃ nulls, Emits s (exec (.vtag f) s) ts (.vector (i.tok .a).vbits f.xf nulls) ∧
       ∀ k, k < 256 / tagBits f.xf.toNat → (nulls.getLsbD k = true ↔
         ∃ j, j < 32 ∧ 8 * j / tagBits f.xf.toNat = k ∧
           (i.tok .a).nulls.getLsbD (8 * j / tagBits (i.tok .a).tag.toNat) = true)) ∧
     (1 ≤ f.xf.toNat → f.xf.toNat ≤ 12 → EmitsLanes s (exec (.vbcast f) s) ts f.xf 1 (tagBits f.xf.toNat) (fun _ => false)
       (fun _ => (i.tok .a).word.setWidth _)) ∧
     (notNone (i.tok .a) = true →
       let w := tagBits (i.tok .a).tag.toNat
       let j := f.z.toNat % 32 % (256 / w)
       ((i.tok .a).nulls.getLsbD j = true → Emits s (exec (.vext f) s) ts .null) ∧
       ((i.tok .a).nulls.getLsbD j = false → Emits s (exec (.vext f) s) ts
         (if 1 ≤ (i.tok .a).tag.toNat ∧ (i.tok .a).tag.toNat ≤ 4 then signed (i.lane .a w j) else unsigned (i.lane .a w j))))) ∧
   (∀ (f : FmtA) (s : State) (i : Inst), Firing s f.gm [.a, .b] i → notNone (i.tok .a) = true →
     let w := tagBits (i.tok .a).tag.toNat
     let j := f.z.toNat % 32 % (256 / w)
     EmitsLanes s (exec (.vins f) s) (targetList f.t) (i.tok .a).tag 1 w (fun k => decide (k ≠ j) && (i.tok .a).nulls.getLsbD k)
       (fun k => if k = j then (i.tok .b).word.setWidth w else i.lane .a w k)))

/-! ### Exits and SYS forms -/

/-- R76, R77, R331 and R332: an exit form that fires first in its block becomes the block's exit, with slot a kept for the
commit, and changes nothing else: BRA, TEND, TRAP, JMP, RET; CALL, whose link is the address of the block that follows in
memory; MIG to a CORE address of the partition, and to a LOCAL or FAR one; RFE inside a handler with a good TSAVE; HALT at
supervisor level. -/
def Obligations.ExitResults : Prop :=
  (∀ (f : FmtB) (s : State) (i : Inst), Firing s f.gm [] i → s.curCtx.win.exits = [] →
    exec (.bra f) s = .next (s.exited [] .null 0) ∧ exec (.tend f) s = .next (s.exited [] .null 0) ∧
    exec (.trap f) s = .next (s.exited [] .null 0) ∧
    exec (.call f) s = .next (s.exited ([f.t0, f.t1].filterMap id)
      (.scalar (s.curCtx.win.addr + BitVec.ofNat 64 (12 * (s.curCtx.win.header.len + 2)))) 0)) ∧
  (∀ (f : FmtB) (s : State) (i : Inst), Firing s f.gm [.a] i → s.curCtx.win.exits = [] →
    let a := (i.tok .a).word
    exec (.jmp f) s = .next (s.exited [] .null a) ∧ exec (.ret f) s = .next (s.exited [] .null a) ∧
    (a.toNat / 2 ^ 60 = 0 ∨ a.toNat / 2 ^ 60 = 8 → exec (.mig f) s = .next (s.exited [] .null a)) ∧
    (a.toNat / 2 ^ 60 = 1 → ∀ id off, classify a 1 = .core id off → (s.phys (s.partOf s.cur.core) id).isSome = true →
      exec (.mig f) s = .next (s.exited [] .null a))) ∧
  (∀ (f : FmtS) (s : State) (i : Inst), Firing s f.gm [] i → s.curCtx.win.exits = [] →
    (s.curCtx.regs.hf = true → tsaveOk s.curCtx.win.snap.regs.tsave = true →
      exec (.rfe f) s = .next (s.exited [] .null (BitVec.ofNat 64 f.z.toNat))) ∧
    (s.curCtx.task.sup = true → exec (.halt f) s = .next (s.exited [] .null 0)))

/-- R70: a second exit that fires is BADEXIT, whichever exit form it is: the block aborts, none of its deliveries or exits
remains, and the task is terminated.
R77, R78, R331 and R332: MIG to an address in no space, or to a core the partition does not have, takes SPACE (0x04)
with the address in TADDR; RFE outside a handler takes PROT (0x02); HALT below supervisor level takes PRIV (0x11); a
handler's RFE whose TSAVE fails its check terminates the task. -/
def Obligations.ExitsThatTrap : Prop :=
  (∀ (s : State) (i : Inst), s.curCtx.win.exits ≠ [] → Ctx.loadsOut { s.curCtx with accs := dropBlock s.curCtx } = false →
     let bad := fun (o : Instr) => Reaches (exec o s) fun t =>
       let d := t.ctx s.cur.core s.cur.ctx
       d.phase = .killing ∧ d.win = {} ∧ d.wait = none ∧ d.regs = s.curCtx.regs
     (∀ f : FmtB, Firing s f.gm [] i → ∀ o ∈ [Instr.bra f, .call f, .tend f, .trap f], bad o) ∧
     (∀ f : FmtB, Firing s f.gm [.a] i → bad (.jmp f) ∧ bad (.ret f) ∧
       ((i.tok .a).word.toNat / 2 ^ 60 = 0 ∨ (i.tok .a).word.toNat / 2 ^ 60 = 8 → bad (.mig f))) ∧
     (∀ f : FmtS, Firing s f.gm [] i →
       (s.curCtx.regs.hf = true → tsaveOk s.curCtx.win.snap.regs.tsave = true → bad (.rfe f)) ∧
       (s.curCtx.task.sup = true → bad (.halt f)))) ∧
  ((∀ (f : FmtB) (s : State) (i : Inst), Firing s f.gm [.a] i → TrapReady s → Mem.wf s.mem = true →
     let a := (i.tok .a).word
     a.toNat / 2 ^ 60 ≠ 0 → a.toNat / 2 ^ 60 ≠ 8 →
     (a.toNat / 2 ^ 60 = 1 → ∀ id off, classify a 1 = .core id off → s.phys (s.partOf s.cur.core) id = none) →
     Reaches (exec (.mig f) s) (TrapTaken s 0x04 a)) ∧
   (∀ (f : FmtS) (s : State) (i : Inst), Firing s f.gm [] i → TrapReady s → Mem.wf s.mem = true →
     Reaches (exec (.rfe f) s) (TrapTaken s 0x02 0) ∧
     (s.curCtx.task.sup = false → Reaches (exec (.halt f) s) (TrapTaken s 0x11 0))) ∧
   (∀ (f : FmtS) (s : State) (i : Inst), Firing s f.gm [] i → s.curCtx.regs.hf = true →
     tsaveOk s.curCtx.win.snap.regs.tsave = false →
     Ctx.loadsOut { s.curCtx with accs := dropBlock s.curCtx } = false →
     Reaches (exec (.rfe f) s) fun t => (t.ctx s.cur.core s.cur.ctx).phase = .killing))

/-- R332: BKPT without a debugger has no effect beyond firing, nor in the one execution that follows a release; with one
attached the block aborts and the context is HALTED at its start, cause 0x0F told to the debugger, registers unchanged. -/
def Obligations.Breakpoint : Prop :=
  (∀ (f : FmtS) (s : State) (i : Inst), Firing s f.gm [] i →
    (s.partRec s.cur.core).attached = false ∨ s.curCtx.win.skip.bkpt = true →
    exec (.bkpt f) s = .next (s.emitted [] .null 1)) ∧
  (∀ (f : FmtS) (s : State) (i : Inst), Firing s f.gm [] i → (s.partRec s.cur.core).attached = true →
    s.curCtx.win.skip.bkpt = false → Ctx.loadsOut { s.curCtx with accs := dropBlock s.curCtx } = false →
    Reaches (exec (.bkpt f) s) fun t =>
      let d := t.ctx s.cur.core s.cur.ctx
      d.status = .halted ∧ d.haltBy = some .bkpt ∧ d.haltCause = 0x0F ∧ d.haltAddr = 0 ∧ d.phase = .fetch s.curCtx.win.addr 0 ∧
        d.win = {} ∧ d.regs = s.curCtx.regs)

/-! ### Memory, synchronising and atomic forms up to their Enter -/

/-- R171, R172 and R192: a scalar load from a pool that passes its checks enters one access of its size and class in its
place in access order, and changes nothing else; the loaded value comes with the reply.
R171, R172 and R174: a scalar store to a pool that passes its checks enters one store access with the low bytes of slot b
and fires; memory is not written before the block commits. -/
def Obligations.PoolAccessesEnter : Prop :=
  (∀ (f : FmtM) (s : State) (i : Inst) (p : Place), Firing s f.gm [.a] i → Unwatched s →
     let a := (i.tok .a).word + f.z.signExtend 64
     Stays s a f.mig → ∀ o n, (o, n) ∈ [(Instr.ldb f, 1), (.ldh f, 2), (.ldw f, 4), (.ldd f, 8), (.ldbu f, 1), (.ldhu f, 2),
       (.ldwu f, 4)] → a.toNat % n = 0 → PoolPlace s a n { r := true } false p →
       exec o s = .next (s.entered
         [{ mkAccess s.cur.idx 0 f.lsid.toNat 0 (memClass f) .load a n p with due := dueOf s p 2 }])) ∧
  (∀ (f : FmtM) (s : State) (i : Inst) (p : Place), Firing s f.gm [.a, .b] i → Unwatched s →
     let a := (i.tok .a).word + f.z.signExtend 64
     Stays s a f.mig → ∀ o n, (o, n) ∈ [(Instr.stb f, 1), (.sth f, 2), (.stw f, 4), (.std f, 8)] → a.toNat % n = 0 →
       PoolPlace s a n { w := true } true p →
       exec o s = .next (s.entered
         [mkAccess s.cur.idx 3 f.lsid.toNat 0 (memClass f) (.store ((bytesOf n (i.tok .b).word.toNat).map some)) a n p] true))

/-- R211: a scalar load or store whose FAR address translates to a page that grants it, in state 10 (a store
in 01 too), enters its access at the far bank behind the page's link, with the translation kept for invalidations. -/
def Obligations.FarAccessesEnter : Prop :=
  ∀ (f : FmtM) (s : State) (i : Inst) (va : Nat) (e : TlbEntry), Unwatched s →
    let c := s.curCtx
    let a := (i.tok .a).word + f.z.signExtend 64
    let reg := c.win.snap.core.asid
    let s' := s.withWin fun w => w.issue s.cur.idx
    ((translate (s.cur.core / 8) (s.partOf s.cur.core) (BitVec.ofNat 12 (asidOf reg)) (s1Of reg) va).run { s := s' }).1 =
      .ok e →
    (∀ o n, (o, n) ∈ [(Instr.ldb f, 1), (.ldh f, 2), (.ldw f, 4), (.ldd f, 8), (.ldbu f, 1), (.ldhu f, 2), (.ldwu f, 4)] →
      Firing s f.gm [.a] i → classify a n = .far va → a.toNat % n = 0 → e.r = true → e.st = 2 →
      Reaches (exec o s) fun t => ∃ x ∈ (t.ctx s.cur.core s.cur.ctx).accs, x.op = .load ∧ x.ea = a ∧ x.size = n ∧
        x.home = .far (farLink (e.phys va)) ∧ x.addr = farKey (e.phys va) ∧ x.far.isSome = true ∧ x.blk = c.blk) ∧
    (∀ o n, (o, n) ∈ [(Instr.stb f, 1), (.sth f, 2), (.stw f, 4), (.std f, 8)] →
      Firing s f.gm [.a, .b] i → classify a n = .far va → a.toNat % n = 0 → e.w = true → (e.st = 2 ∨ e.st = 1) →
      Reaches (exec o s) fun t => ∃ x ∈ (t.ctx s.cur.core s.cur.ctx).accs, x.rank = 3 ∧ x.ea = a ∧ x.size = n ∧
        x.op = .store ((bytesOf n (i.tok .b).word.toNat).map some) ∧
        x.home = .far (farLink (e.phys va)) ∧ x.addr = farKey (e.phys va) ∧ x.far.isSome = true ∧ x.blk = c.blk)

/-- R157, R158 and R160: VLD and VST on a pool enter their 32 bytes, as one access where they lie in one aligned 64-byte
block, as two, the lower first, where they do not; VST leaves out the bytes of null lanes.
R159 and R160: VLDG and VSTS whose elements lie in the pools enter one access for each element that no null lane skips,
in ascending lane order, all in the space that offset lane 0 gives; by HN[78] the first such element moves the task, or not
(log 55). A gather with nothing to read emits its lanes, all null (the model's choice, log 55: R160, R193 and Table 2 say
unlike things of it), and a scatter with nothing to write enters one drain entry that writes nothing. -/
def Obligations.VectorAccessesEnter : Prop :=
  (∀ (f : FmtM) (s : State) (i : Inst) (off : Nat), Unwatched s →
     let core := s.cur.core
     let parts := if off % 64 ≤ 32 then [(0, 32)] else [(0, 64 - off % 64), (64 - off % 64, off % 64 - 32)]
     (Firing s f.gm [.a] i →
       let a := (i.tok .a).word + (f.z.setWidth 20).signExtend 64
       classify a 32 = .loc off → a.toNat % (tagBits (f.z.toNat / 2 ^ 20) / 8) = 0 →
       lpuOk s.curCtx.win.snap.core.lprot s.cur.ctx off 32 { r := true } = true →
       exec (.vld f) s = .next (s.entered (parts.map fun x =>
         { mkAccess s.cur.idx 0 f.lsid.toNat x.1 (memClass f) .load (a + BitVec.ofNat 64 x.1) x.2
             { home := .pool core, addr := poolKey core off + x.1 } with due := s.clk.toNat + 32 }))) ∧
     (Firing s f.gm [.a, .b] i →
       let a := (i.tok .a).word + f.z.signExtend 64
       let t := i.tok .b
       classify a 32 = .loc off → a.toNat % (tagBits t.tag.toNat / 8) = 0 →
       lpuOk s.curCtx.win.snap.core.lprot s.cur.ctx off 32 { w := true } = true →
       let byte := fun j => if t.nulls.getLsbD (8 * j / tagBits t.tag.toNat) then none else some (t.vbits.extractLsb' (8 * j) 8)
       exec (.vst f) s = .next (s.entered (parts.map fun x =>
         mkAccess s.cur.idx 3 f.lsid.toNat x.1 (memClass f) (.store ((List.range x.2).map fun j => byte (x.1 + j)))
           (a + BitVec.ofNat 64 x.1) x.2 { home := .pool core, addr := poolKey core off + x.1 }) true))) ∧
  (∀ (f : FmtM) (s : State) (i : Inst) (place : Nat → Place), Unwatched s →
     let b := i.tok .b
     let c := i.tok .c
     let lane := fun (t : Token) k => ((t.vbits.extractLsb' (tagBits t.tag.toNat * k) (tagBits t.tag.toNat)).signExtend 64 : Word)
     (Firing s f.gm [.a, .b] i → offsetTag b = true →
       let tag := f.z.toNat / 2 ^ 20
       let n := min (256 / tagBits tag) (256 / tagBits b.tag.toNat)
       let w := tagBits tag / 8
       let addr := fun k => (i.tok .a).word + (f.z.setWidth 20).signExtend 64 + lane b k
       let live := (List.range n).filter fun k => !nullAt b k
       (live = [] → exec (.vldg f) s = .next (s.emitted (targetList f.t) (vecTok (BitVec.ofNat 4 tag) fun _ => none) 1)) ∧
       (live ≠ [] → (∀ k, live.head? = some k → Stays s (addr k) f.mig) →
         (∀ k ∈ live, PoolPlace s (addr k) w { r := true } true (place k) ∧ (addr k).toNat % w = 0 ∧
           (addr k).toNat / 2 ^ 60 = (addr 0).toNat / 2 ^ 60) →
         exec (.vldg f) s = .next (s.entered (live.map fun k =>
           mkAccess s.cur.idx 0 f.lsid.toNat k (memClass f) .load (addr k) w (place k))))) ∧
     (Firing s f.gm [.a, .b, .c] i → offsetTag c = true →
       let n := min (256 / tagBits b.tag.toNat) (256 / tagBits c.tag.toNat)
       let w := tagBits b.tag.toNat / 8
       let addr := fun k => (i.tok .a).word + f.z.signExtend 64 + lane c k
       let live := (List.range n).filter fun k => !(nullAt c k || nullAt b k)
       (live = [] → exec (.vsts f) s = .next (s.entered
         [{ emptyStore s.cur.core with idx := s.cur.idx, lsid := f.lsid.toNat, cls := memClass f }] true)) ∧
       (live ≠ [] → (∀ k, live.head? = some k → Stays s (addr k) f.mig) →
         (∀ k ∈ live, PoolPlace s (addr k) w { w := true } true (place k) ∧ (addr k).toNat % w = 0 ∧
           (addr k).toNat / 2 ^ 60 = (addr 0).toNat / 2 ^ 60) →
         exec (.vsts f) s = .next (s.entered (live.map fun k =>
           mkAccess s.cur.idx 3 f.lsid.toNat k (memClass f)
             (.store ((bytesOf w (b.vbits.extractLsb' (tagBits b.tag.toNat * k) (tagBits b.tag.toNat)).toNat).map some))
             (addr k) w (place k)) true))))

/-- R176, R180, R83, R84, R234, R235 and R192: each form on one aligned word of a pool enters a strong access (HTEST a plain
one) with what it will do there; the irrevocable ones at rank 2 of their block.
R318: a rate-set form on an aligned set of a pool enters one access of 64 bytes; RSPUT takes an F32 vector. -/
def Obligations.WordAndRateFormsEnter : Prop :=
  ((∀ (f : FmtM) (s : State) (i : Inst) (p : Place), Unwatched s →
     let a := (i.tok .a).word + f.z.signExtend 64
     a.toNat % 8 = 0 →
     let acc := fun (rank : Nat) (op : MemOp) => mkAccess s.cur.idx rank f.lsid.toNat 0 .strong op a 8 p
     let rws : Rights := { r := true, w := true, s := true }
     (Firing s f.gm [.a] i →
       (PoolPlace s a 8 { r := true, s := true } false p →
         exec (.ldf f) s = .next (s.entered [acc 0 .ldf]) ∧ exec (.feget f) s = .next (s.entered [acc 0 .feget])) ∧
       (PoolPlace s a 8 rws false p → exec (.lde f) s = .next (s.entered [acc 2 .lde])) ∧
       (PoolPlace s a 8 { w := true, s := true } false p →
         exec (.feset f) s = .next (s.entered [acc 2 .feset]) ∧ exec (.feclr f) s = .next (s.entered [acc 2 .feclr]))) ∧
     (Firing s f.gm [.a, .b] i →
       let b := (i.tok .b).word
       let c := (i.tok .c).word
       let m := s.curCtx.win.snap.regs.fmode.setWidth 2
       (PoolPlace s a 8 { w := true, s := true } false p →
         exec (.stf f) s = .next (s.entered [acc 2 (.stf b)]) ∧ exec (.sts f) s = .next (s.entered [acc 2 (.sts b)])) ∧
       (PoolPlace s a 8 rws false p → ∀ o op, (o, op) ∈ [(Instr.aadd f, AtomOp.add), (.amin f, .min), (.amax f, .max),
           (.aminu f, .minu), (.amaxu f, .maxu), (.aand f, .and), (.aor f, .or), (.axor f, .xor), (.axch f, .xch),
           (.afadd f, .fadd)] → exec o s = .next (s.entered [acc 2 (.atom op b c m)]))) ∧
     (Firing s f.gm [.a, .b, .c] i → PoolPlace s a 8 rws false p →
       exec (.acas f) s = .next (s.entered [acc 2 (.atom .cas (i.tok .b).word (i.tok .c).word
         (s.curCtx.win.snap.regs.fmode.setWidth 2))]))) ∧
   (∀ (f : FmtE) (s : State) (i : Inst) (p : Place), Firing s f.gm [.a] i → Unwatched s →
     let a := (i.tok .a).word
     a.toNat % 8 = 0 →
     let acc := fun (rank : Nat) (op : MemOp) => mkAccess s.cur.idx rank f.lsid.toNat 0 .strong op a 8 p
     (PoolPlace s a 8 { r := true, w := true, s := true } false p → exec (.join f) s = .next (s.entered [acc 2 .join])) ∧
     (PoolPlace s a 8 { r := true, s := true } false p →
       exec (.jwait f) s = .next (s.entered [acc 0 .jwait]) ∧ exec (.hwait f) s = .next (s.entered [acc 0 .hwait]))) ∧
   (∀ (f : FmtS) (s : State) (i : Inst) (p : Place), Firing s f.gm [.a] i → Unwatched s → (i.tok .a).word.toNat % 8 = 0 →
     PoolPlace s (i.tok .a).word 8 { r := true } false p →
     exec (.htest f) s = .next (s.entered [mkAccess s.cur.idx 1 s.cur.idx 0 .plain .htest (i.tok .a).word 8 p])) ∧
   (∀ (f : FmtM) (s : State) (i : Inst), Firing s f.gm [] i →
     exec (.fence f) s = .next (s.entered
       [mkAccess s.cur.idx 0 f.lsid.toNat 0 .strong .fence 0 0 { home := .pool s.cur.core, addr := noKey }]))) ∧
  (∀ (f : FmtE) (s : State) (i : Inst) (p : Place), Unwatched s →
     let d := (i.tok .a).word
     d.toNat % 64 = 0 →
     let acc := fun (irr : Bool) (op : RateOp) =>
       { mkAccess s.cur.idx (if irr then 2 else 0) f.lsid.toNat 0 (if irr then .strong else .plain) (.rate op) d 64 p with
         due := if p.core then 0 else s.clk.toNat + 48 }
     let all : Rights := { r := true, w := true, s := true }
     (Firing s f.gm [.a] i → PoolPlace s d 64 all true p →
       exec (.rsinit f) s = .next (s.entered [acc true .init]) ∧ exec (.rsbegin f) s = .next (s.entered [acc true .begin]) ∧
       exec (.rsnext f) s = .next (s.entered [acc true .next])) ∧
     (Firing s f.gm [.a] i → PoolPlace s d 64 { r := true } true p →
       exec (.rsstat f) s = .next (s.entered [acc false .stat])) ∧
     (Firing s f.gm [.a, .b] i → PoolPlace s d 64 { r := true } true p →
       exec (.rsread f) s = .next (s.entered [acc false (.read (i.tok .b).word)])) ∧
     (Firing s f.gm [.a, .b, .c] i → PoolPlace s d 64 all true p → ∀ bits nulls, i.c = some (.vector bits 6 nulls) →
       ∃ m : BitVec 32, exec (.rsput f) s = .next (s.entered [acc true (.put (i.tok .b).word bits m)]) ∧
         ∀ k, k < 8 → m.getLsbD k = nulls.getLsbD k))

/-- R167 to R169, R171 and R211: an access whose address is in no space, or names a core that the partition does not have,
takes SPACE (cause 0x04), one in a space that is not aligned takes ALIGN (0x03), and an aligned one in the own pool that no
region of the LPU admits takes PROT (0x02), each with the address in TADDR. Synchronising forms, JOIN, JWAIT, HWAIT, HTEST
and the rate forms take SPACE on a FAR address too. Of a gather or scatter the first element that no null lane skips is
shown, and an element in another space than the first lane's takes SPACE (R159; where lane 0 is null its address is still
the one compared with, the model's choice, log 52). -/
def Obligations.AccessTraps : Prop :=
  ∀ (s : State) (i : Inst), TrapReady s → Mem.wf s.mem = true →
    let hit := fun (o : Instr) (a : Word) (n align : Nat) (need : Rights) (far : Bool) =>
      ((classify a n = .bad ∨ (far = false ∧ ∃ va, classify a n = .far va) ∨
          ∃ id off, classify a n = .core id off ∧ s.phys (s.partOf s.cur.core) id = none) →
        Reaches (exec o s) (TrapTaken s 0x04 a)) ∧
      (classify a n ≠ .bad → (far = true ∨ ∀ va, classify a n ≠ .far va) →
        (∀ id off, classify a n = .core id off → (s.phys (s.partOf s.cur.core) id).isSome = true) → a.toNat % align ≠ 0 →
        Reaches (exec o s) (TrapTaken s 0x03 a)) ∧
      (∀ off, classify a n = .loc off → a.toNat % align = 0 →
        lpuOk s.curCtx.win.snap.core.lprot s.cur.ctx off n need = false → Reaches (exec o s) (TrapTaken s 0x02 a))
    let r : Rights := { r := true }
    let w : Rights := { w := true }
    let rs : Rights := { r := true, s := true }
    let ws : Rights := { w := true, s := true }
    let rws : Rights := { r := true, w := true, s := true }
    let lane := fun (t : Token) k => ((t.vbits.extractLsb' (tagBits t.tag.toNat * k) (tagBits t.tag.toNat)).signExtend 64 : Word)
    (∀ f : FmtM,
      let a := (i.tok .a).word + f.z.signExtend 64
      let b := (i.tok .a).word + (f.z.setWidth 20).signExtend 64
      let tag := f.z.toNat / 2 ^ 20
      (Firing s f.gm [.a] i →
        (Stays s a f.mig → ∀ o n, (o, n) ∈ [(Instr.ldb f, 1), (.ldh f, 2), (.ldw f, 4), (.ldd f, 8), (.ldbu f, 1), (.ldhu f, 2),
          (.ldwu f, 4)] → hit o a n n r true) ∧
        hit (.ldf f) a 8 8 rs false ∧ hit (.lde f) a 8 8 rws false ∧ hit (.feget f) a 8 8 rs false ∧
        hit (.feset f) a 8 8 ws false ∧ hit (.feclr f) a 8 8 ws false ∧
        (Stays s b f.mig → hit (.vld f) b 32 (tagBits tag / 8) r true)) ∧
      (Firing s f.gm [.a, .b] i →
        (Stays s a f.mig → ∀ o n, (o, n) ∈ [(Instr.stb f, 1), (.sth f, 2), (.stw f, 4), (.std f, 8)] → hit o a n n w true) ∧
        hit (.stf f) a 8 8 ws false ∧ hit (.sts f) a 8 8 ws false ∧
        (∀ o ∈ [Instr.aadd f, .amin f, .amax f, .aminu f, .amaxu f, .aand f, .aor f, .axor f, .axch f, .afadd f],
          hit o a 8 8 rws true) ∧
        (Stays s a f.mig → hit (.vst f) a 32 (tagBits (i.tok .b).tag.toNat / 8) w true)) ∧
      (Firing s f.gm [.a, .b, .c] i → hit (.acas f) a 8 8 rws true) ∧
      (Firing s f.gm [.a, .b] i → offsetTag (i.tok .b) = true →
        let t := i.tok .b
        let n := min (256 / tagBits tag) (256 / tagBits t.tag.toNat)
        ∀ k, k < n → nullAt t k = false → (∀ j, j < k → nullAt t j = true) →
          let x := b + lane t k
          Stays s x f.mig →
            (x.toNat / 2 ^ 60 ≠ (b + lane t 0).toNat / 2 ^ 60 → Reaches (exec (.vldg f) s) (TrapTaken s 0x04 x)) ∧
            (x.toNat / 2 ^ 60 = (b + lane t 0).toNat / 2 ^ 60 → hit (.vldg f) x (tagBits tag / 8) (tagBits tag / 8) r true)) ∧
      (Firing s f.gm [.a, .b, .c] i → offsetTag (i.tok .c) = true →
        let v := i.tok .b
        let t := i.tok .c
        let n := min (256 / tagBits v.tag.toNat) (256 / tagBits t.tag.toNat)
        ∀ k, k < n → (nullAt t k = false ∧ nullAt v k = false) → (∀ j, j < k → nullAt t j = true ∨ nullAt v j = true) →
          let x := a + lane t k
          let m := tagBits v.tag.toNat / 8
          Stays s x f.mig →
            (x.toNat / 2 ^ 60 ≠ (a + lane t 0).toNat / 2 ^ 60 → Reaches (exec (.vsts f) s) (TrapTaken s 0x04 x)) ∧
            (x.toNat / 2 ^ 60 = (a + lane t 0).toNat / 2 ^ 60 → hit (.vsts f) x m m w true))) ∧
    (∀ f : FmtE,
      let a := (i.tok .a).word
      (Firing s f.gm [.a] i → hit (.join f) a 8 8 rws false ∧ hit (.jwait f) a 8 8 rs false ∧ hit (.hwait f) a 8 8 rs false ∧
        hit (.rsinit f) a 64 64 rws false ∧ hit (.rsbegin f) a 64 64 rws false ∧ hit (.rsnext f) a 64 64 rws false ∧
        hit (.rsstat f) a 64 64 r false) ∧
      (Firing s f.gm [.a, .b] i → hit (.rsread f) a 64 64 r false) ∧
      (Firing s f.gm [.a, .b, .c] i → hit (.rsput f) a 64 64 rws false)) ∧
    (∀ f : FmtS, Firing s f.gm [.a] i → hit (.htest f) (i.tok .a).word 8 8 r false)

/-! ### Far-memory system forms and engine commands -/

/-- R219 to R223: PFILL fires without a result and without a fault whatever its address, a relaxed one leaving its walk
owed; PGSTAT enters a plain place in access order; TLBINV at supervisor level drops the TLB and walk-cache entries its
scope covers in every cluster of the partition and enters a strong place that waits for the engines' requests on their way
which it covers, where no access of a context is one.
R221 and R222: PGSTAT of an address outside the FAR space, and TLBINV of one or of a reserved scope, take SPACE (0x04);
TLBINV below supervisor level takes PRIV (0x11). -/
def Obligations.SystemMemoryForms : Prop :=
  ((∀ (f : FmtM) (s : State) (i : Inst), Firing s f.gm [.a] i →
     Reaches (exec (.pfill f) s) fun t =>
       let c := s.curCtx
       let d := t.ctx s.cur.core s.cur.ctx
       d.win = (c.win.issue s.cur.idx).emit s.cur.idx [] .null (dueAt s 1) ∧ d.regs = c.regs ∧ d.phase = c.phase ∧
       d.accs = c.accs ∧ (f.rx = true → t.mem = s.mem ∧
         d.pfills = c.pfills ++ [⟨(i.tok .a).word + f.z.signExtend 64, c.win.snap.core.asid, c.win.addr, s.clk.toNat⟩])) ∧
   (∀ (f : FmtM) (s : State) (i : Inst) (va : Nat), Firing s f.gm [.a] i →
     classify ((i.tok .a).word + f.z.signExtend 64) 1 = .far va →
     exec (.pgstat f) s = .next (s.entered [mkAccess s.cur.idx 0 f.lsid.toNat 0 .plain .pgstat
       ((i.tok .a).word + f.z.signExtend 64) 0 { home := .pool s.cur.core, addr := noKey }])) ∧
   (∀ (f : FmtM) (s : State) (i : Inst) (q : Scope), Firing s f.gm [.a] i → s.curCtx.task.sup = true →
     let a := (i.tok .a).word + f.z.signExtend 64
     let p := s.partOf s.cur.core
     a.toNat / 2 ^ 60 = 8 → scopeOf a (BitVec.ofNat 12 (asidOf s.curCtx.win.snap.core.asid)) = some q →
     (∀ x ∈ s.ctxsOf p, ∀ y ∈ (s.ctx x.1 x.2).accs, y.far = none) →
     (∀ x ∈ s.ctxsOf p, (s.ctx x.1 x.2).win.trans = []) →
     Reaches (exec (.tlbinv f) s) fun t =>
       (∀ cl ∈ (s.partRec s.cur.core).map, (∀ e ∈ (t.cluster cl).tlb, ¬(e.part = p ∧ q.tlb e = true)) ∧
         (∀ e ∈ (t.cluster cl).walk, ¬(e.part = p ∧ q.walk e = true))) ∧
       ∃ x ∈ (t.ctx s.cur.core s.cur.ctx).accs, x.op = .tlbinv (s.net.engineRefs p q) ∧ x.rank = 2 ∧ x.cls = .strong ∧ x.ea = a ∧
         x.lsid = f.lsid.toNat)) ∧
  (∀ (f : FmtM) (s : State) (i : Inst), Firing s f.gm [.a] i → TrapReady s → Mem.wf s.mem = true →
     let a := (i.tok .a).word + f.z.signExtend 64
     ((∀ va, classify a 1 ≠ .far va) → Reaches (exec (.pgstat f) s) (TrapTaken s 0x04 a)) ∧
     (s.curCtx.task.sup = false → Reaches (exec (.tlbinv f) s) (TrapTaken s 0x11 0)) ∧
     (s.curCtx.task.sup = true → (a.toNat / 2 ^ 60 ≠ 8 ∨ 4 ≤ a.toNat / 2 ^ 57 % 8) →
       Reaches (exec (.tlbinv f) s) (TrapTaken s 0x04 a)))

/-- R231: a command in its slot first reads its descriptor: one that stands aligned in a pool enters one strong access of
its form's length at rank 2 of its block, and nothing else happens. A descriptor address in no pool of the partition takes
SPACE (0x04), one that is not 32-byte aligned ALIGN (0x03), one in the own pool that no region admits PROT (0x02), each with
its address in TADDR. That the descriptor is read once, be the command refused or made to wait after it, is the model's
reading (log 13).
R227 to R232 and R240: once the descriptor has come in, or when the command issues again with it, the command takes the
fault of its completion word or PRIV, waits for a slot, is refused in this clock, or is accepted. Which commands meet in one
clock is the model's choice (log 41). -/
def Obligations.CommandsAccepted : Prop :=
  (∀ (f : FmtE) (s : State) (i : Inst),
     let reads := fun (o : Instr) (slots : List Slot) =>
       Firing s f.gm slots i → decode i.word = some o → i.desc = none →
       let d := (i.tok .a).word
       let n := descLen i.word.op i.word.sub
       (∀ p, PoolPlace s d n { r := true } false p → d.toNat % 32 = 0 → Unwatched s →
         exec o s = .next (s.entered [mkAccess s.cur.idx 2 i.word.lsid 0 .strong .desc d n p])) ∧
       (TrapReady s → Mem.wf s.mem = true →
         ((classify d n = .bad ∨ (∃ va, classify d n = .far va) ∨
             ∃ id off, classify d n = .core id off ∧ s.phys (s.partOf s.cur.core) id = none) →
           Reaches (exec o s) (TrapTaken s 0x04 d)) ∧
         (∀ off, classify d n = .loc off → d.toNat % 32 ≠ 0 → Reaches (exec o s) (TrapTaken s 0x03 d)) ∧
         (∀ off, classify d n = .loc off → d.toNat % 32 = 0 →
           lpuOk s.curCtx.win.snap.core.lprot s.cur.ctx off n { r := true } = false →
           Reaches (exec o s) (TrapTaken s 0x02 d)))
     (∀ o ∈ [Instr.cpy f, .cpyx f, .cpys f, .tmul f, .tmv f, .tadd f, .tasm f, .ttype f, .tfree f, .tcopy f, .ttrans f,
       .tsolve f, .tchol f, .tresume f, .dgc f, .dresume f], reads o [.a]) ∧
     (∀ o ∈ [Instr.dvar f, .dnot f, .dref f, .dunref f, .dsize f], reads o [.a, .b]) ∧
     (∀ o ∈ [Instr.dapp f, .dite f, .dres f, .dexq f, .dcnt f], reads o [.a, .b, .c])) ∧
  ((∀ (f : FmtE) (s : State) (i : Inst) (desc : List Byte), Mem.wf s.mem = true →
     let goes := fun (o : Instr) (slots : List Slot) =>
       Firing s f.gm slots i → decode i.word = some o → i.desc = some desc →
       CommandGoes (exec o s) (s.withWin fun w => w.issue s.cur.idx) s.cur i (targetList f.t) desc
     (∀ o ∈ [Instr.cpy f, .cpyx f, .cpys f, .tmul f, .tmv f, .tadd f, .tasm f, .ttype f, .tfree f, .tcopy f, .ttrans f,
       .tsolve f, .tchol f, .tresume f, .dgc f, .dresume f], goes o [.a]) ∧
     (∀ o ∈ [Instr.dvar f, .dnot f, .dref f, .dunref f, .dsize f], goes o [.a, .b]) ∧
     (∀ o ∈ [Instr.dapp f, .dite f, .dres f, .dexq f, .dcnt f], goes o [.a, .b, .c])) ∧
   (∀ (s : State) (p : Reply) (l : List Reply) (i : Inst) (g : FormInfo) (desc : List Byte), Mem.wf s.mem = true →
     s.net.replies = p :: l → p.body = .bytes desc →
     let c := s.ctx p.core p.ctx
     c.gen = p.gen → p.acc ∈ c.accs → (∀ a ∈ c.accs, a.key = p.acc.key → a = p.acc) → p.acc.op = .desc → p.acc.dead = false →
     c.win.insts[p.acc.idx]? = some i → i.word.info = some g →
     CommandGoes (exec (.replyArrival p.core p.ctx) s) (s.replied p fun w => w.described p.acc.idx desc)
       ⟨p.core, p.ctx, p.acc.idx⟩ i (i.word.outs g) desc))

/-- R236 and R232: HCANCEL of a value that names no job of the cluster and partition, or a job whose completion word is on
its way already, emits 0 and does nothing else; of a job of any engine that has not started (a tree or diagram job owns
nothing then) it ends the job with status 0x02, whose completion word goes out, and emits 1; a job that runs it marks, to
end at its next boundary (R243, R288), and emits 1. -/
def Obligations.CancelResult : Prop :=
  (∀ (f : FmtE) (s : State) (i : Inst), Firing s f.gm [.a] i →
    (handleSlot s (s.cur.core / 8) (s.partOf s.cur.core) (i.tok .a).word = none ∨
      ∃ slot j, handleSlot s (s.cur.core / 8) (s.partOf s.cur.core) (i.tok .a).word = some slot ∧
        s.jobOf (s.cur.core / 8) slot = some j ∧ j.st = .ended) →
    exec (.hcancel f) s = .next (s.withWin fun w =>
      { (w.issue s.cur.idx) with committed := true }.emit s.cur.idx (targetList f.t) (.scalar 0) (dueAt s 1))) ∧
  (∀ (f : FmtE) (s : State) (i : Inst) (slot : Nat) (j : Job), Firing s f.gm [.a] i → Mem.wf s.mem = true →
    let cl := s.cur.core / 8
    handleSlot s cl (s.partOf s.cur.core) (i.tok .a).word = some slot → s.jobOf cl slot = some j → j.st = .queued →
    j.engine < 3 → (j.engine ≠ 2 → j.owned = [] ∧ j.raised = []) → j.out = 0 → j.ending = none →
    Reaches (exec (.hcancel f) s) fun t =>
      (∃ r, WordSent s cl slot j (doneWord r 0x02 0) 0x02 t) ∧ t.mem = s.mem ∧
      (t.ctx s.cur.core s.cur.ctx).win =
        { (s.curCtx.win.issue s.cur.idx) with committed := true }.emit s.cur.idx (targetList f.t) (.scalar 1) (dueAt s 1)) ∧
  (∀ (f : FmtE) (s : State) (i : Inst) (slot : Nat) (j : Job), Firing s f.gm [.a] i →
    let cl := s.cur.core / 8
    handleSlot s cl (s.partOf s.cur.core) (i.tok .a).word = some slot → s.jobOf cl slot = some j → j.st = .running →
    j.ending = none → Reaches (exec (.hcancel f) s) fun t =>
      t.jobOf cl slot = some { j with cancel := true } ∧ t.net = s.net ∧ t.mem = s.mem ∧
      (t.ctx s.cur.core s.cur.ctx).win =
        { (s.curCtx.win.issue s.cur.idx) with committed := true }.emit s.cur.idx (targetList f.t) (.scalar 1) (dueAt s 1))

/-! ### Blocks and tasks -/

/-- R68, R49 and R389: a fetch that translates to an executable page, in a slot of the context, waits for its lines when one
is missing; when no line of the block is cached the fill takes its words from the page and the block begins, undecided, with
them; a fetch that finds every line begins at once, a single-bit error of a line corrected and counted. No home watch is set,
whose notice would be written to memory. Registers at block
start are kept with the block (R104). That the fetch begins in a slot of the context is the model's reading of R106 (log 52).
R67: the tokens that are due reach their slots, the others stay in flight; nothing but the block's slots changes. -/
def Obligations.FetchAndTokens : Prop :=
  ((∀ (s : State) (core ctx : Nat) (a : Word) (at_ pa : Nat) (r : Run),
     let c := s.ctx core ctx
     c.phase = .fetch a at_ ∨ c.phase = .restore a at_ → c.status = .active → at_ ≤ s.clk.toNat → c.busy ≤ s.clk.toNat →
     slotOpen c ctx s.clk.toNat = true → c.lost = none → startsBlocks (s.partRec core) = true →
     (c.skipsNow a).brk = true ∨ breakMatch (s.partRec core) a c.task.gtid = [] →
     (∀ k, (s.core k).regs.wpctl.getLsbD 5 = false) →
     let s' := applyAll [.ctx core ctx { c with lastSlot := some s.clk.toNat }, .log true core 0x06 ctx 1] s
     (fetchTarget core ctx a (s.core core).regs.asid).run { s := s' } = (some pa, r) →
     (codeHit (r.s.cluster (core / 8)) pa = false → Reaches (exec (.blockFetch core ctx) s) fun t =>
       let d := t.ctx core ctx
       d.phase = .fill a ∧ d.win = { addr := a, snap := snapOf s core ctx } ∧ d.regs = c.regs ∧ d.accs = c.accs ∧
         t.mem = s.mem) ∧
     (∀ ws, codeHit (r.s.cluster (core / 8)) pa = true →
       (∀ x ∈ (r.s.cluster (core / 8)).code, x.err ≠ .double) →
       ws = wordsAt (codeRead (r.s.cluster (core / 8)) pa (blockBytes (r.s.cluster (core / 8)) pa))
         (blockBytes (r.s.cluster (core / 8)) pa / 12) →
       (ws.headD 0).isHeader = true → (∀ w ∈ ws.drop 1, (decode w).isSome = true) →
       Reaches (exec (.blockFetch core ctx) s) fun t =>
         let d := t.ctx core ctx
         d.phase = .run ∧ d.win.addr = a ∧ d.win.header = ws.headD 0 ∧ d.win.insts = (ws.drop 1).map (fun w => { word := w }) ∧
           d.win.snap = snapOf s core ctx ∧ d.win.flights = [] ∧ d.win.outs = [] ∧ d.blk = c.blk + 1 ∧ d.regs = c.regs ∧
           d.accs = c.accs ∧ t.mem = s.mem ∧
           (∀ x ∈ (t.cluster (core / 8)).code,
             x.line ∈ linesOf pa (blockBytes (r.s.cluster (core / 8)) pa) → x.err = .none) ∧
           (t.cluster (core / 8)).codeFixed = (r.s.cluster (core / 8)).codeFixed +
             ((r.s.cluster (core / 8)).code.filter fun x =>
               (linesOf pa (blockBytes (r.s.cluster (core / 8)) pa)).contains x.line && x.err == .single).length)) ∧
   (∀ (s : State) (core ctx : Nat) (a : Word) (pa : Nat) (r : Run),
     let c := s.ctx core ctx
     let h := codeAt s.mem (farKey pa)
     let ws := (List.range (h.len + 1)).map fun i => codeAt s.mem (farKey (pa + 12 * (i + 1)))
     c.phase = .fill a → c.status = .active → startsBlocks (s.partRec core) = true →
     (∀ k, (s.core k).regs.wpctl.getLsbD 5 = false) →
     (fetchTarget core ctx a c.win.snap.core.asid).run { s := s } = (some pa, r) →
     (∀ x ∈ (s.cluster (core / 8)).code, x.line * 64 + 64 ≤ pa ∨ pa + 12 * (h.len + 2) ≤ x.line * 64) →
     h.isHeader = true → (∀ w ∈ ws, (decode w).isSome = true) →
     Reaches (exec (.codeCacheFill core ctx) s) fun t =>
       let d := t.ctx core ctx
       d.phase = .run ∧ d.win.addr = a ∧ d.win.header = h ∧ d.win.insts = ws.map (fun w => { word := w }) ∧
         d.win.snap = c.win.snap ∧ d.regs = c.regs ∧ t.mem = s.mem)) ∧
  (∀ (s : State) (core ctx : Nat),
     let w := (s.ctx core ctx).win
     (∃ f ∈ w.flights, f.due ≤ s.clk.toNat) → Reaches (exec (.resultDelivery core ctx) s) fun t =>
       let v := (t.ctx core ctx).win
       v.flights = w.flights.filter (fun f => decide (s.clk.toNat < f.due)) ∧ v.outs = w.outs ∧ v.sum = w.sum ∧
       t.mem = s.mem ∧ (t.ctx core ctx).regs = (s.ctx core ctx).regs ∧
       (∀ f ∈ w.flights, f.due ≤ s.clk.toNat → (∀ g ∈ w.flights, g ≠ f → (g.idx ≠ f.idx ∨ g.slot ≠ f.slot)) →
         ∀ i, w.insts[f.idx]? = some i → ∃ j, v.insts[f.idx]? = some j ∧ j.slot f.slot = some f.tok ∧ j.word = i.word ∧
           j.issued = i.issued) ∧
       (∀ k i, w.insts[k]? = some i → (∀ f ∈ w.flights, f.due ≤ s.clk.toNat → f.idx ≠ k) → v.insts[k]? = some i))

/-- R30, R96 and R145: at commit a register takes the last delivery in issue order that is not the null token, a v register
byte by byte with the token's tag, null lanes keeping their bytes, be every lane null; a register with no delivery but null
tokens keeps its value. -/
def Obligations.CommitWritesRegisters : Prop :=
  ∀ (w : Window) (r : Regs) (n : Nat),
    (∀ k, k < 16 → (∀ o ∈ w.outs, o.vec = false → o.n = k → o.tok = .null) →
      vget 0 (w.regsAfter r n).g k = vget 0 r.g k) ∧
    (∀ o ∈ w.outs, ∀ x, o.vec = false → o.n < 16 → o.tok = .scalar x →
      (∀ p ∈ w.outs, p.vec = false → p.n = o.n → p.tok = .null ∨ p = o ∨ p.seq < o.seq) →
      vget 0 (w.regsAfter r n).g o.n = x) ∧
    (∀ k, k < 8 → (∀ o ∈ w.outs, o.vec = true → o.n = k → o.tok = .null) →
      vget {} (w.regsAfter r n).v k = vget {} r.v k) ∧
    (∀ o ∈ w.outs, ∀ b tag nl, o.vec = true → o.n < 8 → o.tok = .vector b tag nl →
      (∀ p ∈ w.outs, p.vec = true → p.n = o.n → p.tok = .null ∨ p = o ∨ p.seq < o.seq) →
      let v := vget {} (w.regsAfter r n).v o.n
      v.tag = tag ∧ ∀ j, j < 32 → v.bits.extractLsb' (8 * j) 8 =
        (if nullByte o.tok j then (vget {} r.v o.n).bits else b).extractLsb' (8 * j) 8) ∧
    (w.regsAfter r n).xsig = r.xsig.rotateLeft 5 ^^^ (w.addr.extractLsb' 2 30).setWidth 64 ^^^ BitVec.ofNat 64 n

/-- R69, R76 to R80, R104, R118, R331 and R332: a complete block with one exit, one with an irrevocable form too, commits in
a slot of its context: its registers are written, XSIG advances, its stores go to the drain queue, its window is empty,
memory is as it was; and the exit is taken. BRA and CALL go to their target, JMP and RET to slot a, TEND to the end of the
task, HALT to HALTED before the block that follows, the eclipse line asked for with source 1. MIG to another core of the
partition, with nothing left to drain, sends the task there; RFE with no store out restores the registers of the save area,
clears the handler flag and goes to TBLK or to the word at offset 0. An MTC held by the block writes its register: a task
register and a core register at once, RWTB with the eight windows of its table; one to a counter or of cluster scope
joins the writes that are kept until the end of the clock, the register standing until then: how the model reads R106 and
R367 (its reading, DEDUCED, log 49). That a TRAP reads TVEC and TSAVE as the commit leaves them is the model's choice (log
52).
R41, R69, R70, R188, R201 and R385: a complete block without exactly one exit ends its task, whatever its other checks
say. Of one with its exit, and at the commit point of a sync block, the signature is checked first: a mismatch runs the
block again from its start, once, and on that second run leads to containment; then the stack: a g14 below SLIMIT takes
STACK (0x06) with the value in TADDR; then a lost store, after which no release store and no irrevocable form is performed
and the block runs again behind the handler. Nothing of the block is kept. -/
def Obligations.CommitOutcomes : Prop :=
  (∀ (s : State) (core ctx : Nat) (e : ExitFired),
     let c := s.ctx core ctx
     let w := c.win
     let next := w.addr + BitVec.ofNat 64 (12 * (w.header.len + 2))
     let goes := fun (x : Instr) (n : Nat) (ph : Phase) => Committing s core ctx e x → w.mtc = none →
       Reaches (exec (.blockCommit core ctx) s) fun t =>
         let d := t.ctx core ctx
         d.phase = ph ∧ d.regs = w.regsAfter c.regs n ∧ d.win = {} ∧ t.mem = s.mem ∧
           d.accs = c.accs.map (fun a => if a.st = .window then { a with st := .drain } else a)
     (∀ f : FmtB, goes (.bra f) f.exit.toNat (.fetch (w.addr + f.z.signExtend 64 * 4) s.clk.toNat)) ∧
     (∀ f : FmtB, goes (.call f) f.exit.toNat (.fetch (w.addr + f.z.signExtend 64 * 4) s.clk.toNat)) ∧
     (∀ f : FmtB, goes (.jmp f) f.exit.toNat (.fetch e.a s.clk.toNat) ∧ goes (.ret f) f.exit.toNat (.fetch e.a s.clk.toNat) ∧
       goes (.tend f) f.exit.toNat .ending) ∧
     (∀ f : FmtS, goes (.halt f) 0 (.fetch next 0)) ∧
     (∀ (f : FmtS), Committing s core ctx e (.halt f) → w.mtc = none →
       Reaches (exec (.blockCommit core ctx) s) fun t =>
         (t.ctx core ctx).status = .halted ∧ (t.ctx core ctx).haltBy = some .haltForm ∧
         ∀ p, s.part? (s.partOf core) = some p → ∃ q, t.part? (s.partOf core) = some q ∧
           q.raises = p.raises ++ [(.halt, c.task.gtid)]) ∧
     (∀ (f : FmtB) (m : BitVec 8) (v : Word), Committing s core ctx e (.bra f) → w.mtc = some (m, v) →
       (m = 0x2A → (s.core core).regs.wpctl.getLsbD 5 = false) →
       Reaches (exec (.blockCommit core ctx) s) fun t =>
         let n := m.toNat
         let r := w.regsAfter c.regs f.exit.toNat
         let k := s.core core
         (t.ctx core ctx).regs = (if n < 0x20 then writeTaskReg r n v else r) ∧
           (t.ctx core ctx).phase = .fetch (w.addr + f.z.signExtend 64 * 4) s.clk.toNat ∧
           (0x20 ≤ n → clusterScope n = true →
             (t.cluster (core / 8)).mtcs = (s.cluster (core / 8)).mtcs ++ [(core % 8, n, v)]) ∧
           (counterReg n = true → (t.core core).mtcs = k.mtcs ++ [(n, v)] ∧ (t.core core).regs = k.regs) ∧
           (0x20 ≤ n → clusterScope n = false → counterReg n = false →
             (t.core core).regs = writeCoreReg k.regs n v ∧ (t.core core).mtcs = k.mtcs ∧
             (n = 0x2A → ∀ i, ∀ h : i < 8,
               (t.core core).windows[i] = windowAt (Mem.read s.mem (poolKey core v.toNat) 256) i)) ∧ t.mem = s.mem) ∧
     (∀ (f : FmtB) (id off k : Nat), Committing s core ctx e (.mig f) → w.mtc = none → c.lost = none →
       classify e.a 1 = .core id off → s.phys (s.partOf core) id = some k → k ≠ core → declines (w.regsAfter c.regs f.exit.toNat) = false → c.accs = [] →
       Reaches (exec (.blockCommit core ctx) s) fun t =>
         (t.ctx core ctx).phase = .migWait next k ∧ ∃ p, t.net.migs = s.net.migs ++ [(k, p)] ∧ p.cont = next ∧
           p.regs.g = (w.regsAfter c.regs f.exit.toNat).g ∧ p.task.gtid = c.task.gtid ∧ p.src = core ∧ p.srcCtx = ctx ∧
           p.srcGen = c.gen) ∧
     (∀ (f : FmtS), Committing s core ctx e (.rfe f) → w.mtc = none → (∀ a ∈ c.accs, a.isStore = false) →
       let r := w.regsAfter c.regs 0
       let bs := Mem.read s.mem (poolKey core r.tsave.toNat) 576
       Reaches (exec (.blockCommit core ctx) s) fun t =>
         let d := t.ctx core ctx
         d.regs = { restoreRegs r bs with hf := false } ∧
           d.phase = .fetch (if e.a = 0 then r.tblk else fieldWord bs 0) s.clk.toNat) ∧
     (∀ (f : FmtB), Committing s core ctx e (.trap f) → w.mtc = none → c.accs = [] → Mem.wf s.mem = true →
       let r := w.regsAfter c.regs f.exit.toNat
       r.hf = false → r.tvec ≠ 0 → tsaveOk r.tsave = true →
       Reaches (exec (.blockCommit core ctx) s) fun t =>
         let d := t.ctx core ctx
         let r' := { r with tcause := 0x08, taddr := f.z.setWidth 64, tblk := next, tidx := 65 }
         d.regs = { r' with hf := true } ∧ d.phase = .fetch r.tvec (s.clk.toNat + 128) ∧
           ((s.core core).regs.wpctl.getLsbD 5 = false →
             Mem.read t.mem (poolKey core r.tsave.toNat) 576 = saveImage r' c.task.gtid next))) ∧
  (∀ (s : State) (core ctx : Nat),
     let c := s.ctx core ctx
     let w := c.win
     SlotFor s core ctx → (∀ a ∈ c.accs, a.dead = false) →
     (c.complete = true → (∀ e, w.exits ≠ [e]) → Reaches (exec (.blockCommit core ctx) s) fun t =>
       (t.ctx core ctx).phase = .killing ∧ (t.ctx core ctx).win = {} ∧ (t.ctx core ctx).regs = c.regs) ∧
     ((c.complete = true ∧ w.commitPoint = none ∧ ∃ e, w.exits = [e]) ∨ (c.complete = false ∧ c.pointFails = true) →
       (w.sigBad = true → Reaches (exec (.blockCommit core ctx) s) fun t =>
         let d := t.ctx core ctx
         d.phase = .fetch w.addr 0 ∧ d.win = {} ∧ d.regs = c.regs ∧ t.mem = s.mem ∧
         (c.task.sigRetry ≠ some w.addr → d.status = .active ∧ d.task.sigRetry = some w.addr) ∧
         (c.task.sigRetry = some w.addr → d.status = .halted ∧ d.haltCause = 0x0C ∧
           ∀ u, umbraOf t.mgmt.umbrae (core / 8) = some u → u.stage ≠ .ok)) ∧
       (∀ v k, w.sigBad = false → stackBelow w = some (v, k) → Mem.wf s.mem = true → TrapReady { s with cur := ⟨core, ctx, k⟩ } →
         Reaches (exec (.blockCommit core ctx) s) (TrapTaken { s with cur := ⟨core, ctx, k⟩ } 0x06 v)) ∧
       (w.sigBad = false → stackBelow w = none → c.lost.isSome = true → (c.complete = true → c.strongStore = true) →
         Reaches (exec (.blockCommit core ctx) s) fun t =>
           let d := t.ctx core ctx
           d.phase = .fetch w.addr 0 ∧ d.win = {} ∧ d.regs = c.regs ∧ d.lost = c.lost ∧ t.mem = s.mem)))

/-- R80, R330 and R333: an aborted block's trap is taken once its loads have returned; a task that has drained ends, with its
almanac entry, its context FREE and one task less in its launch, marked terminated where it was terminated. -/
def Obligations.TaskEnds : Prop :=
  ∀ (s : State) (core ctx : Nat), ctx < 16 → Mem.wf s.mem = true →
    let c := s.ctx core ctx
    (∀ cause addr blk idx resume, c.phase = .after (.trap cause addr blk idx resume) → c.loadsOut = false →
      c.status = .active → c.regs.hf = false → c.regs.tvec ≠ 0 → tsaveOk c.regs.tsave = true → c.storesOut = false →
      Reaches (exec (.trapEntry core ctx) s) fun t =>
        let d := t.ctx core ctx
        let r := { c.regs with tcause := cause, taddr := addr, tblk := blk, tidx := idx }
        d.regs = { r with hf := true } ∧ d.phase = .fetch c.regs.tvec (s.clk.toNat + 128) ∧
          ((s.core core).regs.wpctl.getLsbD 5 = false →
            Mem.read t.mem (poolKey core c.regs.tsave.toNat) 576 = saveImage r c.task.gtid resume)) ∧
    (c.phase = .killing → c.accs = [] → Reaches (exec (.taskTerminate core ctx) s) fun t =>
      Freed c (t.ctx core ctx) ∧ Recorded s core ctx 2 t ∧ OneLess s c.task.launch true t) ∧
    (c.phase = .ending → c.accs = [] → c.status = .active → Reaches (exec (.taskEnd core ctx) s) fun t =>
      Freed c (t.ctx core ctx) ∧ Recorded s core ctx 1 t ∧ OneLess s c.task.launch false t)

/-! ### Waiting, parking and the sources of work -/

/-- R182 and R330: a park record restores every register it was made from; a save area restores the g, v and
stream registers, their tags and masks, XSIG and FMODE, and leaves every other register. -/
def Obligations.RecordsRestore : Prop :=
  (∀ (r : Regs) (i : RecInfo), i.kind < 8 → recordRegs (taskRecord r i) = r ∧ fieldWord (taskRecord r i) 0 = i.blk ∧
    fieldWord (taskRecord r i) 8 = i.gtid ∧ fieldWord (taskRecord r i) 32 = i.wake ∧ (taskRecord r i).length = 576) ∧
  (∀ (r q : Regs) (gtid resume : Word), (saveImage r gtid resume).length = 576 ∧
    fieldWord (saveImage r gtid resume) 0 = resume ∧
    restoreRegs q (saveImage r gtid resume) =
      { q with g := r.g, v := r.v, streams := r.streams, xsig := r.xsig, fmode := r.fmode })

/-- R74, R75, R181, R182, R185, R186, R187 and R217: the steps of a wait. A retry sends the access again in the context's
slot; a resolve word that is FULL with 0 starts the block again. After WSPIN rotations the spin ends; an attempt to park then
takes the lowest free slot and sends the access with its wake condition. A parking context writes its record and becomes FREE.
A wake that names the parked task hands it to the core with the value; one that does not is discarded and counted. Past
WLIMIT a cancel goes to the home, which takes the entry out and hands the task back to take WAITLIM. -/
def Obligations.WaitingSteps : Prop :=
  (∀ (s : State) (core ctx : Nat) (w : Wait),
    let c := s.ctx core ctx
    c.wait = some w →
    (c.mayTry (s.partRec core) = true → slotOpen c ctx s.clk.toNat = true → w.expired = false → w.on = .form →
      Reaches (exec (.waitRetry core ctx) s) fun t =>
        let d := t.ctx core ctx
        d.wait = some { w with out := true } ∧ d.lastSlot = some s.clk.toNat ∧ d.regs = c.regs ∧ d.win = c.win ∧
          d.accs = insertAcc (c.stamp ctx w.acc) c.accs ∧ t.mem = s.mem) ∧
    (∀ k off addr blk idx, c.mayTry (s.partRec core) = true → slotOpen c ctx s.clk.toNat = true → w.expired = false →
      w.on = .resolve k off addr blk idx → s.nacks (core / 8) k = false → s.errs.double = [] →
      (s.syncOf (poolKey k off / 8)).getLsbD 0 = true → Mem.read64 s.mem (poolKey k off) = 0 →
      Reaches (exec (.waitRetry core ctx) s) fun t =>
        (t.ctx core ctx).wait = none ∧ (t.ctx core ctx).phase = .fetch blk s.clk.toNat ∧ (t.ctx core ctx).regs = c.regs) ∧
    (c.status = .active → w.expired = false →
      w.start + 16 * c.regs.wspin.toNat ≤ s.clk.toNat ∨ s.preempting core = true →
      Reaches (exec (.spinExpiry core ctx) s) fun t =>
        (t.ctx core ctx).wait = some { w with expired := true } ∧ (t.ctx core ctx).regs = c.regs) ∧
    (c.status = .active → w.retry = true → w.parkAt ≤ s.clk.toNat →
      Reaches (exec (.parkSlotRetryExpiry core ctx) s) fun t =>
        (t.ctx core ctx).wait = some { w with retry := false } ∧ (t.ctx core ctx).regs = c.regs) ∧
    (∀ p k, c.mayTry (s.partRec core) = true → w.expired = true → w.retry = false → w.parkAt ≤ s.clk.toNat →
      w.on = .form → w.acc.home = .pool k → freePark (s.core core) = some p →
      Reaches (exec (.parkAttempt core ctx) s) fun t =>
        (∃ e, sget none p ((t.core core).pslots.map fun x => (x.1, some x.2)) = some e ∧ e.st = .reserved ∧ e.ctx = ctx ∧
          e.gen = c.gen ∧ e.task = c.task ∧ e.home = k ∧ e.blk = c.win.addr) ∧
        (t.ctx core ctx).wait = some { w with out := true } ∧
        (t.ctx core ctx).accs = insertAcc (c.stamp ctx { w.acc with park := some (condOf w.acc.op, p) }) c.accs)) ∧
  (∀ (s : State) (core ctx p : Nat) (ps : PSlot), Mem.wf s.mem = true →
    let c := s.ctx core ctx
    c.phase = .parkWrite p → c.busy ≤ s.clk.toNat → s.portBusy (.pool core) = false → (s.core core).pslots.find? (fun x => x.1 == p) = some (p, ps) →
    Reaches (exec (.parkWriteout core ctx) s) fun t =>
      Freed c (t.ctx core ctx) ∧
      ∃ i : RecInfo, ((s.core core).regs.wpctl.getLsbD 5 = false →
        Mem.read t.mem (poolKey core (parkAt (s.core core).regs.partw p)) 576 = taskRecord c.regs i) ∧
        i.blk = ps.blk ∧ i.gtid = c.task.gtid ∧ i.wake = ps.addr ∧ i.clk = ps.clk ∧ i.kind = 1) ∧
  (∀ (s : State) (core : Nat) (w : Wake) (l : List Wake), s.net.wakes = w :: l → w.core = core →
    (s.partRec core).eclipse = none → (s.core core).regs.wpctl.getLsbD 5 = false →
    let id := ofBytes (Mem.read s.mem (poolKey core (parkAt (s.core core).regs.partw w.pslot + 40)) 8)
    (wakeSlot s w = some .parked → id / 2 ^ 16 % 256 = w.ctx → id / 2 ^ 24 % 256 = w.gen.toNat → Reaches (exec (.wakeDelivery core) s) fun t =>
      t.net.wakes = l ∧ (t.core core).requeue = (s.core core).requeue ++ [.woken w.pslot w.value]) ∧
    (wakeSlot s w = none → Reaches (exec (.wakeDelivery core) s) fun t =>
      t.net.wakes = l ∧ (t.core core).requeue = (s.core core).requeue ∧ (t.core core).stale = (s.core core).stale + 1)) ∧
  (∀ (s : State) (core p : Nat) (ps : PSlot), (s.core core).pslots.find? (fun x => x.1 == p) = some (p, ps) →
    ps.st = .parked → overLimit s core p = true → Reaches (exec (.wlimitExpiry core p) s) fun t =>
      t.net.cancels = s.net.cancels ++ [{ home := ps.home, off := ps.off, core := core, pslot := p }] ∧
        (t.core core).pslots = sset p { ps with st := .cancelSent } (s.core core).pslots) ∧
  (∀ (s : State) (x : Cancel) (l : List Cancel) (ps : PSlot), s.net.cancels = x :: l →
    (s.core x.core).pslots.find? (fun y => y.1 == x.pslot) = some (x.pslot, ps) → ps.st = .cancelSent →
    ps.home = x.home → ps.off = x.off → s.fencedHome (.pool x.home) = false → ps.cond ≠ 0 →
    (∃ e ∈ (s.core ps.home).wakeTable, e.2.core = x.core ∧ e.2.pslot = x.pslot ∧ e.2.gen = ps.gen) →
    Reaches (exec (.waitCancel x.home) s) fun t =>
      t.net.cancels = l ∧ (t.core x.core).requeue = (s.core x.core).requeue ++ [.waitlim x.pslot] ∧
      (∀ e ∈ (t.core x.home).wakeTable, ¬(e.2.core = x.core ∧ e.2.pslot = x.pslot ∧ e.2.gen = ps.gen)))

/-- The state of a task's registers at its start (Table 4 of R80, R346): arguments in g0 and g1, the join word in g2, the stack
of its context in g14 and g15, 0 in every other register, the trap registers among them (Table 2 of R101), every stream
closed, SLIMIT and the defaults of its launch.
R86, R87, R88, R91 and R92: the other sources of work. A woken task comes before an arrival, with the registers of
its record and its block after 8 slots; an arrived task begins its continuation block with the registers it brought, a new
stack; a steal takes the oldest record whose domain holds the thief, or counts a failure, a whole round of which is waited out
for 256 clocks; a root goes to the deque of its core. A migrating task is taken into the arrival queue and frees its origin, or
is turned away and sent again 256 clocks later. The victims' order across a round and the start of a new round are read as
log 42 says (the model's choice). -/
def Obligations.TasksStartAndMove : Prop :=
  (∀ (s : State) (core ctx : Nat) (d : DequeRec) (l : List DequeRec) (x : Launch),
     let c := s.ctx core ctx
     let k := s.core core
     let base := stackBase k.regs.partw ctx
     ctx < 16 → s.takesWork core = true → s.firstFree core ctx = true → s.reservedFor core ctx = none → k.requeue = [] →
     k.arrivals = [] → k.deque = l ++ [d] → d ∉ l → s.rootClass d = none → s.launch? d.launch = some x →
     Reaches (exec (.findWork core ctx) s) fun t =>
       let e := t.ctx core ctx
       e.status = .active ∧ e.phase = .fetch d.entry s.clk.toNat ∧ e.gen = c.gen ∧ e.win = {} ∧ e.accs = [] ∧
         e.task.gtid = d.gtid ∧ e.task.launch = d.launch ∧ e.task.sup = (s.partRec core).sup ∧
         vget 0 e.regs.g 0 = d.arg0 ∧ vget 0 e.regs.g 1 = d.arg1 ∧ vget 0 e.regs.g 2 = d.join ∧
         vget 0 e.regs.g 14 = BitVec.ofNat 64 (base + stackBytes k.regs.partw) ∧
         vget 0 e.regs.g 15 = BitVec.ofNat 64 base ∧ (∀ n, 3 ≤ n → n < 14 → vget 0 e.regs.g n = 0) ∧
         (∀ n, n < 8 → vget {} e.regs.v n = {}) ∧ e.regs.slimit = BitVec.ofNat 64 (base + 512) ∧
         e.regs.fmode = x.fmode ∧ e.regs.wspin = x.wspin ∧ e.regs.wlimit = x.wlimit ∧ e.regs.tvec = x.tvec ∧
         e.regs.stealdom = x.stealdom ∧ e.regs.xsig = 0 ∧ e.regs.hf = false ∧
         e.regs.tcause = 0 ∧ e.regs.taddr = 0 ∧ e.regs.tblk = 0 ∧ e.regs.tidx = 0 ∧
         (∀ n, n < 4 → (vget {} e.regs.streams n).isOpen = false) ∧
         e.regs.tsave = (if x.tsb = 0 then 0 else x.tsb + BitVec.ofNat 64 (576 * ctx)) ∧ (t.core core).deque = l) ∧
  ((∀ (s : State) (core ctx p : Nat) (v : Word) (l : List Requeue) (ps : PSlot),
     let k := s.core core
     s.takesWork core = true → s.firstFree core ctx = true → s.reservedFor core ctx = none →
     k.requeue = .woken p v :: l → k.pslots.find? (fun x => x.1 == p) = some (p, ps) → ps.on = .form →
     Reaches (exec (.findWork core ctx) s) fun t =>
       let e := t.ctx core ctx
       e.status = .active ∧ e.regs = recordRegs (parkRecord s core p) ∧ e.task = ps.task ∧
         e.phase = .restore (fieldWord (parkRecord s core p) 0) (s.clk.toNat + 128) ∧ (t.core core).requeue = l ∧
         (∀ x ∈ (t.core core).pslots, x.1 ≠ p)) ∧
   (∀ (s : State) (core ctx : Nat) (p : Packed) (l : List Packed),
     let k := s.core core
     let base := stackBase k.regs.partw ctx
     s.takesWork core = true → s.firstFree core ctx = true → s.reservedFor core ctx = none → k.requeue = [] →
     k.arrivals = p :: l →
     Reaches (exec (.findWork core ctx) s) fun t =>
       let e := t.ctx core ctx
       e.status = .active ∧ e.phase = .fetch p.cont s.clk.toNat ∧ (∀ n, n < 14 → vget 0 e.regs.g n = vget 0 p.regs.g n) ∧
         vget 0 e.regs.g 14 = BitVec.ofNat 64 (base + stackBytes k.regs.partw) ∧ vget 0 e.regs.g 15 = BitVec.ofNat 64 base ∧
         e.regs.v = p.regs.v ∧ e.regs.streams = p.regs.streams ∧ e.regs.xsig = p.regs.xsig ∧
         e.regs.slimit = BitVec.ofNat 64 base + p.sl.signExtend 64 ∧ e.task.gtid = p.task.gtid ∧ (t.core core).arrivals = l) ∧
   (∀ (s : State) (core ctx : Nat), s.maySteal core ctx = true →
     let n := 8 * (s.partRec core).map.length
     let st := (s.ctx core ctx).steal
     let v := nextVictim n (s.logical core) st.last
     (∀ k d l m, s.phys (s.partOf core) v = some k → k ≠ core → s.fencedHome (.pool k) = false →
       (s.core k).deque = l ++ d :: m →
       inDomain d.domain v (s.logical core) = true → (∀ y ∈ l, inDomain y.domain v (s.logical core) = false) →
       Reaches (exec (.stealAttempt core ctx) s) fun t =>
         (t.core k).deque = l ++ m ∧ (t.ctx core ctx).status = .active ∧ (t.ctx core ctx).task.gtid = d.gtid ∧
           (t.ctx core ctx).phase = .fetch d.entry s.clk.toNat) ∧
     (∀ k, s.phys (s.partOf core) v = some k → (∀ y ∈ (s.core k).deque, inDomain y.domain v (s.logical core) = false) →
       Reaches (exec (.stealAttempt core ctx) s) fun t =>
         let e := (t.ctx core ctx).steal
         (t.ctx core ctx).status = (s.ctx core ctx).status ∧ e.last = v ∧
           e.notBefore = (if n - 1 ≤ st.tried + 1 then s.clk.toNat + 256 else 0) ∧
           e.tried = (if n - 1 ≤ st.tried + 1 then 0 else st.tried + 1))) ∧
   (∀ (s : State) (core ctx : Nat), (s.ctx core ctx).steal.notBefore ≠ 0 →
     (s.ctx core ctx).steal.notBefore ≤ s.clk.toNat → Reaches (exec (.stealBackoffExpiry core ctx) s) fun t =>
       (t.ctx core ctx).steal = { (s.ctx core ctx).steal with notBefore := 0 }) ∧
   (∀ (s : State) (n k : Nat) (l : Launch) (p : Partition), s.launch? n = some l → s.part? l.part = some p →
     physIn p (l.placed % (8 * p.map.length)) = some k → l.placed < l.n → p.eclipse = none → p.preempt = none →
     s.fencedHome (.pool k) = false → (s.core k).deque.length < 64 → Reaches (exec (.rootPlacement n) s) fun t =>
       (∃ d, (t.core k).deque = (s.core k).deque ++ [d] ∧ d.entry = l.entry ∧ d.arg0 = BitVec.ofNat 64 l.placed ∧
         d.arg1 = l.arg ∧ d.join = 0 ∧ d.domain = l.stealdom ∧ d.launch = n ∧ d.root0 = decide (l.placed = 0)) ∧
       (t.core k).seq = (s.core k).seq + 1 ∧
       t.launch? n = some { l with placed := l.placed + 1, live := l.live + 1 }) ∧
   (∀ (s : State) (core : Nat) (p : Packed) (l : List (Nat × Packed)), s.net.migs = (core, p) :: l →
     (s.partRec core).eclipse = none → (s.ctx p.src p.srcCtx).gen = p.srcGen → s.fencedHome (.pool core) = false →
     p.srcCtx < 16 →
     ((s.core core).arrivals.length < 8 → (s.partRec core).preempt = none → Mem.wf s.mem = true →
       Reaches (exec (.migrationArrival core) s) fun t =>
         t.net.migs = l ∧ (∃ q, (t.core core).arrivals = (s.core core).arrivals ++ [q] ∧ q.cont = p.cont ∧ q.regs = p.regs ∧
           q.task.gtid = p.task.gtid) ∧ Freed (s.ctx p.src p.srcCtx) (t.ctx p.src p.srcCtx) ∧
           Recorded s p.src p.srcCtx 3 t) ∧
     (8 ≤ (s.core core).arrivals.length → Reaches (exec (.migrationArrival core) s) fun t =>
       t.net.migs = l ∧ t.net.migNacks = s.net.migNacks ++ [(p.src, p.srcCtx, p.srcGen)] ∧ t.ctxs = s.ctxs)) ∧
   (∀ (s : State) (core ctx k : Nat) (a : Word) (l : List (Nat × Nat × BitVec 8)),
     s.net.migNacks = (core, ctx, (s.ctx core ctx).gen) :: l →
     (s.ctx core ctx).phase = .migWait a k → Reaches (exec (.migrationNack core ctx) s) fun t =>
       t.net.migNacks = l ∧ (t.ctx core ctx).phase = .migRetry a k (s.clk.toNat + 256)) ∧
   (∀ (s : State) (core ctx k at_ : Nat) (a : Word), (s.ctx core ctx).phase = .migRetry a k at_ →
     (s.ctx core ctx).status = .active → at_ ≤ s.clk.toNat → Reaches (exec (.migrationRetryExpiry core ctx) s) fun t =>
       (t.ctx core ctx).phase = .migWait a k ∧
         ∃ p, t.net.migs = s.net.migs ++ [(k, p)] ∧ p.cont = a ∧ p.task = (s.ctx core ctx).task))

/-! ### The Orrery -/

/-- R190, R193, R196 and R197: a send takes the earliest unsent non-relaxed access, or a relaxed one that may go; the
access is then sent, an irrevocable form with it past its commit point, and a load takes with it the bytes that the stores
of its block give. An arrival puts the oldest request of a channel last into the queue of its home, with the clock; it stands
in no send queue then. The read of a command's descriptor is no commit point (R231). That no access sent ahead touches the bytes of the one that goes is a premise of the model's, which
notes each access that goes ahead of forms before it (log 13). -/
def Obligations.SendsAndArrivals : Prop :=
  (∀ (s : State) (core ctx : Nat) (a : Access),
    let c := s.ctx core ctx
    c.sending = true → Dispatches c a → c.overtaken a = false →
      (c.nextPlain = some a → c.canSendPlain a = true → c.lost = none →
        Reaches (exec (.sendNonRelaxed core ctx) s) fun t => Sent s core ctx a t ∧ t.mem = s.mem ∧
          (t.ctx core ctx).win = { c.win with
            committed := c.win.committed || (a.rank == 2 && a.op != .desc)
            ahead := if (c.before a).isEmpty then c.win.ahead else c.win.ahead ++ [a] } ∧
          ∀ x ∈ (t.ctx core ctx).accs, x.key = a.key → x.st = .sent) ∧
      (∀ n, (c.accs.filter c.canSendRelaxed)[n]? = some a →
        Reaches (exec (.sendRelaxed core ctx n) s) fun t => Sent s core ctx a t ∧ t.mem = s.mem ∧
          (t.ctx core ctx).win = { c.win with
            committed := c.win.committed || (a.rank == 2 && a.op != .desc)
            ahead := if (c.before a).isEmpty then c.win.ahead else c.win.ahead ++ [a] } ∧
          ∀ x ∈ (t.ctx core ctx).accs, x.key = a.key → x.st = .sent ∧ x.inPool = true)) ∧
  (∀ (s : State) (src : Source) (h : Home) (r : Req) (l : List (Source × Home × Req)),
    s.net.channels = (src, h, r) :: l → s.fencedHome h = false →
    Reaches (exec (.arrive src h) s) fun t => t.net.channels = l ∧
      t.net.homes = s.net.homes ++ [(h, { r with at_ := s.clk.toNat, queued := false })] ∧ t.mem = s.mem ∧ t.ctxs = s.ctxs)

/-- R172, R176, R177, R180, R83, R84, R234 and R235: what a home does with each operation on a word of a pool, in one
indivisible step: the answer, the word's new value and its full flag. v and f are the value and the flag before. -/
def Obligations.PoolOperations : Prop :=
  ∀ (s : State) (k off : Nat) (r : Req) (l : List (Home × Req)), OwnWord s k off r l →
    let v := Mem.read64 s.mem (poolKey k off)
    let st := s.syncOf (poolKey k off / 8)
    let f := st.getLsbD 0
    let does := fun (op : MemOp) (body : ReplyBody) (v' : Word) (f' : Bool) =>
      r.acc.op = op → Reaches (exec (.perform (.pool k)) s) (Performed s k off r l body v' f')
    does .load (.bytes (Mem.read s.mem (poolKey k off) 8)) v f ∧
    (f = true → does .ldf (.value v) v true ∧ does .hwait (.value v) v true ∧ does .lde (.value v) v false ∧
      does .htest (.value v) v true) ∧
    (f = false → does .htest (.value (BitVec.allOnes 64)) v false ∧
      ∀ x, does (.stf x) .written x true) ∧
    (∀ x, does (.sts x) .written x true) ∧ does .feset .written v true ∧ does .feclr .written v false ∧
    does .feget (.value (st.setWidth 64)) v f ∧
    (∀ b c rm, does (.atom .add b c rm) (.value v) (v + b) f ∧
      does (.atom .min b c rm) (.value v) (if v.sle b then v else b) f ∧
      does (.atom .max b c rm) (.value v) (if b.sle v then v else b) f ∧
      does (.atom .minu b c rm) (.value v) (if v ≤ b then v else b) f ∧
      does (.atom .maxu b c rm) (.value v) (if b ≤ v then v else b) f ∧
      does (.atom .and b c rm) (.value v) (v &&& b) f ∧ does (.atom .or b c rm) (.value v) (v ||| b) f ∧
      does (.atom .xor b c rm) (.value v) (v ^^^ b) f ∧ does (.atom .xch b c rm) (.value v) b f ∧
      does (.atom .cas b c rm) (.value v) (if v = b then c else v) f ∧
      does (.atom .fadd b c rm) (.value v) (BitVec.ofNat 64 (f64.ofVal (rmodeOf rm.toNat) false
        (fvAdd (rmodeOf rm.toNat) 0 (f64.decode v.toNat) (f64.decode b.toNat)))) f) ∧
    does .join (.value (v - 1)) (v - 1) f ∧ (v = 0 → does .jwait (.value 0) 0 f) ∧
    (r.acc.park = none → (f = false → does .ldf .notYet v false ∧ does .lde .notYet v false ∧ does .hwait .notYet v false) ∧
      (f = true → ∀ x, does (.stf x) .notYet v true) ∧ (v ≠ 0 → does .jwait .notYet v f))

/-- R317 to R325: what the home does with each rate form on a set of its own pool. RSSTAT reads, RSBEGIN opens the
next sweep, RSNEXT claims the member at CURSOR with its pending value folded in when it is due, RSREAD reads a member at
its effective value or along its slope, RSPUT is refused or stores the new value and the next class, RSINIT answers its
error code or resets the set; a bad index of RSREAD and a record region that fails R318 are refused with PROT. Every byte
beside those named is as before. The form holds the port for 2 + ceil(COUNT·RSZ / 64) clocks (RSINIT), 2 + the members it
examines (RSNEXT) or 4, behind those for which the port is held already. -/
def Obligations.RateSetsAtHome : Prop :=
  ∀ (s : State) (k off : Nat) (r : Req) (op : RateOp) (d : RateDesc), OwnSet s k off r op d →
    let refused := fun (body : ReplyBody) =>
      Reaches (exec (.perform (.pool k)) s) fun t => Replied s r body t ∧ t.mem = s.mem
    let same := fun (t : State) (a : Nat) => Mem.get t.mem a = Mem.get s.mem a
    let at_ := fun (a o n : Nat) => poolKey k o ≤ a ∧ a < poolKey k (o + n)
    (off % 64 = 0 → r.acc.size = 64 → Reaches (exec (.perform (.pool k)) s) fun t =>
      (t.core k).hold.till = max s.clk.toNat (s.core k).hold.till + (match op with
        | .init => 2 + (d.count * d.rsz + 63) / 64
        | .next => 2 + ((descAt t.mem k off).cursor - d.cursor)
        | _ => 4)) ∧
    (d.v = false →
      (op = .stat → refused (.value 0)) ∧ (op = .begin → refused (.value 0)) ∧
      (op = .next → refused (.value (BitVec.allOnes 64))) ∧ (∀ m, op = .read m → refused (.refused 0x02 r.acc.ea)) ∧
      ∀ m c n, op = .put m c n → refused (.value 0)) ∧
    (d.v = true → op ≠ .init →
      (∀ w ∈ (s.ctx k r.ctx).win.snap.core.lprot.toList, ¬(regionAdmits w r.ctx off (off + 64) r.acc.op.needs = true ∧
        lprotBase w ≤ d.mbase ∧ d.mbase + d.count * d.rsz ≤ lprotLimit w)) → refused (.refused 0x02 r.acc.ea)) ∧
    (op = .init →
      (wbitsOf (BitVec.ofNat 64 d.w1) 31 24 ≠ 0 ∨ d.count = 0 ∨ 65536 < d.count → refused (.value 1)) ∧
      (wbitsOf (BitVec.ofNat 64 d.w1) 31 24 = 0 → 0 < d.count → d.count ≤ 65536 →
        (d.mbase / 2 ^ 22 ≠ 0 ∨ d.mbase % 16 ≠ 0 → refused (.value 2)) ∧
        (d.mbase / 2 ^ 22 = 0 → d.mbase % 16 = 0 → poolSize < d.mbase + d.count * d.rsz → refused (.value 4)))) ∧
    (RecordsInside s r d →
      (op = .init → wbitsOf (BitVec.ofNat 64 d.w1) 31 24 = 0 → 0 < d.count → d.count ≤ 65536 → d.mbase % 16 = 0 →
        let lo := f32.decode (d.lohi % 2 ^ 32)
        let hi := f32.decode (d.lohi / 2 ^ 32)
        (lo.isNan = true ∨ hi.isNan = true ∨ fvLt hi lo = true → refused (.value 5)) ∧
        (lo.isNan = false → hi.isNan = false → fvLt hi lo = false →
          Reaches (exec (.perform (.pool k)) s) fun t => Replied s r (.value 0) t ∧
            (let e := descAt t.mem k off
             e.v = true ∧ e.n = 0 ∧ e.w3 = 0 ∧ e.mbase = d.mbase ∧ e.count = d.count ∧ e.lanes = d.lanes ∧
              e.kmax = d.kmax ∧ e.extrapolate = d.extrapolate ∧ e.lohi = d.lohi) ∧
            (∀ j, j < 8 → ofBytes (Mem.read t.mem (poolKey k (off + 32 + 4 * j)) 4) = if j = 0 then d.count else 0) ∧
            (∀ m, m < d.count → let x := memberAt s.mem k d m
              memberAt t.mem k d m = { k := 0, kn := 0, pend := false, last := 0, clm := 0, cur := x.cur, next := x.cur,
                                       slope := List.replicate d.lanes 0 }) ∧
            ∀ a, ¬at_ a off 64 → ¬at_ a d.mbase (d.count * d.rsz) → same t a)) ∧
      (d.v = true →
        (op = .stat → refused (.value (BitVec.ofNat 64 (d.n + (d.due + 2 ^ 17 - d.taken) % 2 ^ 17 * 2 ^ 32 + 2 ^ 49)))) ∧
        (op = .begin → (d.n = 2 ^ 32 - 1 → refused (.value 0)) ∧ (d.n < 2 ^ 32 - 1 →
          Reaches (exec (.perform (.pool k)) s) fun t => Replied s r (.value (BitVec.ofNat 64 (d.n + 1))) t ∧
            (let e := descAt t.mem k off
             e.n = d.n + 1 ∧ e.w1 % 2 ^ 32 = d.w1 % 2 ^ 32 ∧ e.cursor = 0 ∧ e.taken = 0 ∧
              e.due = ((List.range (min (ctz32 (d.n + 1)) 7 + 1)).map fun j =>
                ofBytes (Mem.read s.mem (poolKey k (off + 32 + 4 * j)) 4)).sum % 2 ^ 17) ∧
            ∀ a, ¬at_ a (off + 8) 8 → ¬at_ a (off + 24) 8 → same t a)) ∧
        (op = .next → (d.n = 0 ∨ d.count ≤ d.cursor → refused (.value (BitVec.allOnes 64))) ∧
          (d.n ≠ 0 → d.cursor < d.count → let x := memberAt s.mem k d d.cursor
            (x.kEff d.n ≤ ctz32 d.n → Reaches (exec (.perform (.pool k)) s) fun t =>
              Replied s r (.value (BitVec.ofNat 64 d.cursor)) t ∧
              memberAt t.mem k d d.cursor = { x.folded d.n with clm := d.n } ∧
              (let e := descAt t.mem k off
               e.cursor = d.cursor + 1 ∧ e.taken = (d.taken + 1) % 2 ^ 17 ∧ e.due = d.due) ∧
              ∀ a, ¬at_ a (off + 24) 8 → ¬at_ a (d.member d.cursor) (16 + 4 * d.lanes) → same t a) ∧
            (ctz32 d.n < x.kEff d.n → d.cursor + 1 = d.count → Reaches (exec (.perform (.pool k)) s) fun t =>
              Replied s r (.value (BitVec.allOnes 64)) t ∧ memberAt t.mem k d d.cursor = x.folded d.n ∧
              (descAt t.mem k off).cursor = d.count ∧
              ∀ a, ¬at_ a (off + 24) 8 → ¬at_ a (d.member d.cursor) (16 + 4 * d.lanes) → same t a))) ∧
        (∀ m, op = .read m → (d.count ≤ m.toNat → refused (.refused 0x02 r.acc.ea)) ∧
          (m.toNat < d.count → let x := memberAt s.mem k d m.toNat
            ∃ bits nulls, refused (.vec bits nulls) ∧ ∀ i, i < 8 → nulls.getLsbD i = decide (d.lanes ≤ i) ∧
              (i < d.lanes →
                (d.extrapolate = false ∨ x.isDue d.n = true → lane bits 32 i = (x.curEff d.n).getD i 0) ∧
                (d.extrapolate = true → x.isDue d.n = false → x.last ≤ d.n →
                  lane bits 32 i = f32.ofVal .rne false (fvFma .rne 0 (f32.decode (x.slope.getD i 0))
                    (f32.decode (f32.ofFin .rne false false (d.n - x.last) 0))
                    (f32.decode ((x.curEff d.n).getD i 0))) % 2 ^ 32)))) ∧
        (∀ m c n, op = .put m c n →
          (d.n = 0 ∨ d.count ≤ m.toNat → refused (.value 0)) ∧
          (d.n ≠ 0 → m.toNat < d.count → let x := memberAt s.mem k d m.toNat
            (x.clm ≠ d.n ∨ x.last = d.n → refused (.value 0)) ∧
            (x.clm = d.n → x.last ≠ d.n →
              let new := (List.range d.lanes).map fun i => if n.getLsbD i then x.cur.getD i 0 else lane c 32 i
              let q := rateClass d x.k (rateDelta d.lanes new x.cur)
              Reaches (exec (.perform (.pool k)) s) fun t => Replied s r (.value (BitVec.ofNat 64 (0x100 + q))) t ∧
                (let y := memberAt t.mem k d m.toNat
                 y.k = x.k ∧ y.kn = q ∧ y.pend = true ∧ y.last = d.n ∧ y.clm = x.clm ∧ y.cur = x.cur ∧ y.next = new ∧
                  (x.last = 0 → y.slope = List.replicate d.lanes 0) ∧
                  (x.last ≠ 0 → ∀ i, i < d.lanes → y.slope.getD i 0 =
                    slopeOf (f32.decode (new.getD i 0)) (f32.decode (x.cur.getD i 0)) ((d.n : Int) - x.last) % 2 ^ 32)) ∧
                (∀ j, j < 8 →
                  let old := ofBytes (Mem.read s.mem (poolKey k (off + 32 + 4 * j)) 4)
                  ofBytes (Mem.read t.mem (poolKey k (off + 32 + 4 * j)) 4) =
                    (old + (if j = q then 1 else 0) + 2 ^ 32 - (if j = x.kn then 1 else 0)) % 2 ^ 32) ∧
                ∀ a, ¬at_ a (off + 32) 32 → ¬at_ a (d.member m.toNat) d.rsz → same t a)))))

/-- R165, R172, R173, R193 and R200: a store of a committed block writes the bytes it names at its home and no other, the
states of its words unchanged, and is then done with; a far load answers with the bytes that stand there; a far store writes its bytes at its bank; a relaxed store to a page that is filling waits in
the replay queue, and is performed from there once its page is present. A pool's port that has served an access in a clock
serves no other in it (R18). While an action holds it, it serves the core's own accesses to other bytes, each of which
lengthens the action by a clock, and no other request (R319). -/
def Obligations.LoadsAndStores : Prop :=
  (∀ (s : State) (k off : Nat) (r : Req) (l : List (Home × Req)) (d : List (Option Byte)),
    s.net.homes = (.pool k, r) :: l → PortOpen s k r → r.core = k → r.eng = none → r.acc.core = false →
    r.acc.far = none →
    r.acc.home = .pool k →
    r.acc.addr = poolKey k off → off + d.length ≤ poolSize → r.acc.op = .store d → (s.ctx k r.ctx).gen = r.gen →
    (s.ctx k r.ctx).phase = .run → (∀ w, (s.syncOf w).getLsbD 1 = false) → (s.core k).regs.wpctl.getLsbD 5 = false →
    Mem.wf s.mem = true →
    Reaches (exec (.perform (.pool k)) s) fun t =>
      t.net.homes = l ∧ t.sync = s.sync ∧ (∀ x ∈ (t.ctx k r.ctx).accs, x.key ≠ r.acc.key) ∧
      (s.clk.toNat < (s.core k).hold.till → off / 64 = (off + r.acc.size - 1) / 64 →
        (t.core k).hold.till = (s.core k).hold.till + 1) ∧
      (∀ i b, d[i]? = some (some b) → Mem.get t.mem (poolKey k off + i) = b) ∧
      (∀ a, (∀ i b, d[i]? = some (some b) → a ≠ poolKey k off + i) → Mem.get t.mem a = Mem.get s.mem a)) ∧
  (∀ (s : State) (h : Nat) (r : Req), s.arrived (.far h) = some (.far h, r) → r.eng = none → r.acc.home = .far h →
    (∀ x, r.acc.far = some x → x.st = 2) → Mem.wf s.mem = true →
    (r.acc.op = .load → Reaches (exec (.perform (.far h)) s) fun t => t.mem = s.mem ∧
      t.net.homes = s.net.homes.erase (.far h, r) ∧
      t.net.performed = s.net.performed ++
        [{ core := r.core, ctx := r.ctx, gen := r.gen, acc := r.acc, body := .bytes (Mem.read s.mem r.acc.addr r.acc.size) }]) ∧
    (∀ d, r.acc.op = .store d → Reaches (exec (.perform (.far h)) s) fun t =>
      t.net.homes = s.net.homes.erase (.far h, r) ∧
      t.net.performed = s.net.performed ++
        [{ core := r.core, ctx := r.ctx, gen := r.gen, acc := r.acc, body := .written }] ∧
      (∀ i b, d[i]? = some (some b) → Mem.get t.mem (r.acc.addr + i) = b) ∧
      (∀ a, (∀ i b, d[i]? = some (some b) → a ≠ r.acc.addr + i) → Mem.get t.mem a = Mem.get s.mem a))) ∧
  (∀ (s : State) (h : Home) (r : Req) (x : FarRef), s.arrived h = some (h, r) → s.portShut h r = false →
    r.acc.isStore = true → r.acc.cls = .relaxed → r.acc.far = some x → x.st ≠ 2 →
    (s.cluster (r.core / 8)).replay.length < 16 → Reaches (exec (.perform h) s) fun t =>
      t.net.homes = s.net.homes.erase (h, r) ∧ t.mem = s.mem ∧
        (t.cluster (r.core / 8)).replay = (s.cluster (r.core / 8)).replay ++ [r]) ∧
  (∀ (s : State) (cl h : Nat) (r : Req) (l : List Req) (d : List (Option Byte)), (s.cluster cl).replay = r :: l →
    r.acc.home = .far h → (∀ x, r.acc.far = some x → x.st = 2) → r.acc.op = .store d → Mem.wf s.mem = true →
    Reaches (exec (.replay cl 0) s) fun t => (t.cluster cl).replay = l ∧
      t.net.performed = s.net.performed ++
        [{ core := r.core, ctx := r.ctx, gen := r.gen, acc := r.acc, body := .written }] ∧
      (∀ i b, d[i]? = some (some b) → Mem.get t.mem (r.acc.addr + i) = b) ∧
      (∀ a, (∀ i b, d[i]? = some (some b) → a ≠ r.acc.addr + i) → Mem.get t.mem a = Mem.get s.mem a)) ∧
  (∀ (s : State) (k : Nat), (s.core k).portAt = some s.clk.toNat → exec (.perform (.pool k)) s = .next s) ∧
  (∀ (s : State) (k off : Nat) (r : Req), s.arrived (.pool k) = some (.pool k, r) → r.acc.addr = poolKey k off →
    s.clk.toNat < (s.core k).hold.till →
    (r.own = false ∨ ∃ x ∈ (s.core k).hold.touched, x.1 < off + r.acc.size ∧ off < x.1 + x.2) →
    exec (.perform (.pool k)) s = .next s)

/-- R85, R93, R157, R159, R166, R171 to R173, R193 and R234: an acknowledged access leaves the pool and a store is done
with; a reply brings its token to the targets of its form: each load's bytes extended as its form says, a vector load's
with the tag Z gives, a gather's with the lanes it did not read null; an HWAIT that asked for it takes the trap its status
word names; a load all of whose bytes a store of its own block gives is answered without a request; a form that found its
condition unmet begins to wait; a reply of another generation is discarded and counted; a PAUSE that is over emits CLK; a
scrub of the next word in turn, in a clock in which nothing else asks for the port, corrects a single-bit error and counts
it. -/
def Obligations.RepliesArrive : Prop :=
  (∀ (s : State) (p : Reply) (l : List Reply), s.net.performed = p :: l → (s.ctx p.core p.ctx).gen = p.gen →
    (p.acc.isStore = true → (s.ctx p.core p.ctx).phase = .run → Reaches (exec (.acknowledge p.core p.ctx) s) fun t =>
      t.net.performed = l ∧ (t.ctx p.core p.ctx).accs = (s.ctx p.core p.ctx).accs.filter (fun a => a.key != p.acc.key)) ∧
    (p.acc.isStore = false → Reaches (exec (.acknowledge p.core p.ctx) s) fun t =>
      t.net.performed = l ∧ t.net.replies = s.net.replies ++ [p] ∧
        ∀ a ∈ (t.ctx p.core p.ctx).accs, a.key = p.acc.key → a.st = .acked ∧ a.inPool = false)) ∧
  (∀ (s : State) (p : Reply) (l : List Reply), s.net.replies = p :: l →
    let c := s.ctx p.core p.ctx
    (c.gen ≠ p.gen → Reaches (exec (.replyArrival p.core p.ctx) s) fun t =>
      t.net.replies = l ∧ t.ctxs = s.ctxs ∧ (t.core p.core).stale = (s.core p.core).stale + 1) ∧
    (c.gen = p.gen → (∀ a ∈ c.accs, a.key = p.acc.key → a = p.acc) → p.acc.dead = false → p.acc.park = none →
      (∀ v i o f, p.body = .value v → c.win.insts[p.acc.idx]? = some i → decode i.word = some o → o.info = some f →
        (p.acc.op = .hwait → hwaitTrap i.word v = none) → Reaches (exec (.replyArrival p.core p.ctx) s) fun t =>
          let d := t.ctx p.core p.ctx
          t.net.replies = l ∧ d.wait = none ∧ d.regs = c.regs ∧ d.accs = c.accs.filter (fun a => a.key != p.acc.key) ∧
            d.win = ({ c.win with committed := c.win.committed || p.acc.rank == 2 }).emit p.acc.idx (i.word.outs f)
              (.scalar v) (max p.acc.due s.clk.toNat)) ∧
      (∀ v i cause, p.body = .value v → p.acc.op = .hwait → c.win.insts[p.acc.idx]? = some i →
        i.word.z.getLsbD 20 = true →
        (v.toNat / 2 ^ 24 % 256 = 0x10 ∧ cause = 0x0A ∨ v.toNat / 2 ^ 24 % 256 = 0x11 ∧ cause = 0x09 ∨
          v.toNat / 2 ^ 24 % 256 = 0x12 ∧ cause = 0x12) →
        let s' := { s.replied p (fun w => w) with cur := { core := p.core, ctx := p.ctx, idx := p.acc.idx } }
        TrapReady s' → Mem.wf s.mem = true → Reaches (exec (.replyArrival p.core p.ctx) s) (TrapTaken s' cause p.acc.ea)) ∧
      (∀ bs i, p.body = .bytes bs → p.acc.op ≠ .desc → p.acc ∈ c.accs → c.win.insts[p.acc.idx]? = some i →
        let got := overlay p.acc.fwd bs
        let due := max p.acc.due s.clk.toNat
        let emits := fun (ts : List Target) (tok : Token) => Reaches (exec (.replyArrival p.core p.ctx) s) fun t =>
          t.net.replies = l ∧ (t.ctx p.core p.ctx).regs = c.regs ∧
            (t.ctx p.core p.ctx).win = c.win.emit p.acc.idx ts tok due
        (c.accs.filter (fun a => a.blk == p.acc.blk && a.idx == p.acc.idx) = [p.acc] →
          let x := fun n => BitVec.ofNat n (ofBytes got)
          (∀ f, decode i.word = some (.ldb f) → emits (targetList f.t) (.scalar ((x 8).signExtend 64))) ∧
          (∀ f, decode i.word = some (.ldh f) → emits (targetList f.t) (.scalar ((x 16).signExtend 64))) ∧
          (∀ f, decode i.word = some (.ldw f) → emits (targetList f.t) (.scalar ((x 32).signExtend 64))) ∧
          (∀ f, decode i.word = some (.ldd f) → emits (targetList f.t) (.scalar (x 64))) ∧
          (∀ f, bs.length = 1 → decode i.word = some (.ldbu f) → emits (targetList f.t) (.scalar ((x 8).setWidth 64))) ∧
          (∀ f, bs.length = 2 → decode i.word = some (.ldhu f) → emits (targetList f.t) (.scalar ((x 16).setWidth 64))) ∧
          (∀ f, bs.length = 4 → decode i.word = some (.ldwu f) → emits (targetList f.t) (.scalar ((x 32).setWidth 64))) ∧
          (∀ f, decode i.word = some (.vld f) →
            emits (targetList f.t) (.vector (x 256) (BitVec.ofNat 4 (f.z.toNat / 2 ^ 20)) 0))) ∧
        (∀ f a g, decode i.word = some (.vld f) → a.key ≠ p.acc.key → a.got = some g →
          c.accs.filter (fun b => b.blk == p.acc.blk && b.idx == p.acc.idx) = [a, p.acc] →
          emits (targetList f.t) (.vector (BitVec.ofNat 256 (ofBytes (g ++ got))) (BitVec.ofNat 4 (f.z.toNat / 2 ^ 20)) 0)) ∧
        (∀ f, decode i.word = some (.vldg f) →
          (∀ a ∈ c.accs, a.blk = p.acc.blk → a.idx = p.acc.idx → a.key ≠ p.acc.key → a.got.isSome = true) →
          (∀ a ∈ c.accs, ∀ b ∈ c.accs, a.blk = p.acc.blk → a.idx = p.acc.idx → b.blk = p.acc.blk → b.idx = p.acc.idx →
            a.part = b.part → a = b) →
          let tag := BitVec.ofNat 4 (f.z.toNat / 2 ^ 20)
          ∃ bits nulls, emits (targetList f.t) (.vector bits tag nulls) ∧ ∀ k, k < laneN tag →
            (nulls.getLsbD k = true ↔ ∀ a ∈ c.accs, a.blk = p.acc.blk → a.idx = p.acc.idx → a.part ≠ k) ∧
            (k = p.acc.part → lane bits (laneW tag) k = ofBytes got % 2 ^ laneW tag) ∧
            ∀ a ∈ c.accs, ∀ g, a.blk = p.acc.blk → a.idx = p.acc.idx → a.key ≠ p.acc.key → a.part = k → a.got = some g →
              lane bits (laneW tag) k = ofBytes g % 2 ^ laneW tag)) ∧
      (p.body = .notYet → (p.acc.rank = 2 → c.win.doomed = false) → c.wait = none → Reaches (exec (.replyArrival p.core p.ctx) s) fun t =>
        ∃ w, (t.ctx p.core p.ctx).wait = some w ∧ w.on = .form ∧ w.idx = p.acc.idx ∧ w.start = s.clk.toNat ∧ w.out = false))) ∧
  (∀ (s : State) (core ctx : Nat) (a b : Access) (bs : List Byte) (i : Inst) (f : FmtM),
    let c := s.ctx core ctx
    c.sending = true → c.nextPlain = some a → c.canSendPlain a = true → c.overtaken a = false → c.lost = none →
    a.op = .load → a.rank = 0 → a.blk = c.blk → a.size = 8 →
    a.addr ≠ noKey → c.win.insts[a.idx]? = some i → decode i.word = some (.ldd f) →
    c.accs.filter (fun x => x.blk == a.blk && x.idx == a.idx) = [a] → (∀ x ∈ c.accs, x.key = a.key → x = a) →
    b ∈ c.accs → b.op = .store (bs.map some) → bs.length = 8 → b.addr = a.addr → b.blk = c.blk → b.rank = 3 →
    b.idx ∈ c.win.candidates a.lsid →
    (∀ x ∈ c.accs, x.blk = c.blk → x.rank = 3 → x.idx ∈ c.win.candidates a.lsid → x = b) →
    Reaches (exec (.sendNonRelaxed core ctx) s) fun t => t.net = s.net ∧ t.mem = s.mem ∧
      (t.ctx core ctx).win = { c.win with
        ahead := if (c.before a).isEmpty then c.win.ahead else c.win.ahead ++ [a] }.emit a.idx (targetList f.t)
        (.scalar (BitVec.ofNat 64 (ofBytes bs)))
        (max a.due s.clk.toNat)) ∧
  (∀ (s : State) (core ctx k n : Nat) (i : Inst) (o : Instr) (f : FormInfo),
    let c := s.ctx core ctx
    c.win.pauses = [(k, n)] → n ≤ s.clk.toNat → c.status = .active → c.win.insts[k]? = some i → decode i.word = some o →
    o.info = some f → Reaches (exec (.pauseExpiry core ctx) s) fun t =>
      (t.ctx core ctx).win = ({ c.win with pauses := [] }).emit k (i.word.outs f) (.scalar s.clk) s.clk.toNat) ∧
  (∀ (s : State) (core word : Nat), core < 4608 → word = (s.core core).scrubNext → word < poolSize / 8 →
    s.portBusy (.pool core) = false → (∀ x ∈ s.net.homes, x.1 ≠ .pool core) → s.errs.double = [] →
    poolKey core (8 * word) ∈ s.errs.single → Reaches (exec (.poolScrub core word) s) fun t =>
      poolKey core (8 * word) ∉ t.errs.single ∧ (t.core core).scrubNext = (word + 1) % (poolSize / 8) ∧ t.errs.double = [] ∧ t.mem = s.mem ∧ t.ctxs = s.ctxs ∧
        t.evlog = s.evlog ++ [(true, core, 0x18, 0, s.errs.single.count (poolKey core (8 * word)))])

/-! ### Fault records, pages and engines -/

/-- R214 to R216 and R220: the oldest record that waits is posted once slot h is free: its words, then w3 at 0, FULL for kinds 7
and 8 and EMPTY for the others, then its queue word, FULL; h advances. A block whose record found a busy slot executes again.
A relaxed PFILL's walk is made, and posts the hint of an absent page under kind 4. -/
def Obligations.FaultRecords : Prop :=
  (∀ (s : State) (cl k off : Nat) (r : PendRec) (l : List PendRec), (s.cluster cl).pend = r :: l → r.job = none →
    s.pager cl = some (k, off) → off % 8 = 0 → (∀ w, (s.syncOf w).getLsbD 1 = false) → Mem.wf s.mem = true →
    s.errs.double = [] → s.portBusy (.pool k) = false → (s.core k).regs.wpctl.getLsbD 5 = false →
    let h := (s.cluster cl).h.toNat
    let q := off + 8 * h
    let rec_ := off + 0x200 + 32 * h
    (s.syncOf (poolKey k q / 8)).getLsbD 0 = false → (s.syncOf (poolKey k (rec_ + 24) / 8)).getLsbD 0 = true →
    Reaches (exec (.faultRecordPost cl) s) fun t =>
      (t.cluster cl).pend = l ∧ (t.cluster cl).h = (s.cluster cl).h + 1 ∧
      Mem.read64 t.mem (poolKey k rec_) = r.w0 ∧ Mem.read64 t.mem (poolKey k (rec_ + 8)) = r.w1 ∧
      Mem.read64 t.mem (poolKey k (rec_ + 16)) = r.w2 ∧ Mem.read64 t.mem (poolKey k (rec_ + 24)) = 0 ∧
      (t.syncOf (poolKey k (rec_ + 24) / 8)).getLsbD 0 = decide (wbitsOf r.q 11 8 = 7 ∨ wbitsOf r.q 11 8 = 8) ∧
      Mem.read64 t.mem (poolKey k q) = r.q ∧ (t.syncOf (poolKey k q / 8)).getLsbD 0 = true) ∧
  (∀ (s : State) (core ctx at_ : Nat) (a : Word),
    let c := s.ctx core ctx
    c.phase = .after (.postRetry a at_) → c.status = .active → c.loadsOut = false → at_ ≤ s.clk.toNat →
    Reaches (exec (.faultPostRetryExpiry core ctx) s) fun t =>
      (t.ctx core ctx).phase = .fetch a s.clk.toNat ∧ (t.ctx core ctx).regs = c.regs) ∧
  (∀ (s : State) (core ctx va k off : Nat) (o : OwedFill) (l : List OwedFill) (e : TlbEntry),
    let c := s.ctx core ctx
    let cl := core / 8
    let s' := (Eff.ctx core ctx { c with pfills := l }).apply s
    c.pfills = o :: l → classify o.addr 1 = .far va →
    ((walk cl (s.partOf core) (BitVec.ofNat 12 (asidOf o.asid)) (s1Of o.asid) va).run { s := s' }).1 = .ok e →
    e.st = 0 → (s.cluster cl).hints = [] → (s.cluster cl).pend = [] → s.pager cl = some (k, off) → off % 8 = 0 →
    (∀ w, (s.syncOf w).getLsbD 1 = false) → Mem.wf s.mem = true → s.errs.double = [] →
    (s.core k).regs.wpctl.getLsbD 5 = false →
    let h := (s.cluster cl).h.toNat
    (s.syncOf (poolKey k (off + 8 * h) / 8)).getLsbD 0 = false →
    (s.syncOf (poolKey k (off + 0x200 + 32 * h + 24) / 8)).getLsbD 0 = true →
    Reaches (exec (.pfillRelaxedWalk core ctx) s) fun t =>
      (t.ctx core ctx).pfills = l ∧ (t.ctx core ctx).regs = c.regs ∧ (t.cluster cl).h = (s.cluster cl).h + 1 ∧
      Mem.read64 t.mem (poolKey k (off + 8 * h)) = recWord (asidOf o.asid) false 0 4 0 ∧
      Mem.read64 t.mem (poolKey k (off + 0x200 + 32 * h + 16)) = o.addr)

/-- R45 to R48, R224 and R225: a request to map a page executable is answered with the scanner's verdict. On a refusal no
memory outside the request's record changes; on OK the block-start bitmap and the leaf with X and XSLOT are written, the
invalidation of the page is applied, and w3 follows once the accesses that it awaits have been performed. A request to
withdraw takes X off the leaf and drops the page's code-cache lines in every cluster, and is answered likewise. A verdict OK
says of the page that from its first word on blocks follow one another, each of which passes every check of Table 10 of R46,
and that every byte behind the last is 0; a page of zeros has it. That w0 becomes EMPTY and the ring advances at the answer,
which S1ROOT the request's page is looked up under, and the 683 bytes of the bitmap are the model's choice (log 17). -/
def Obligations.ExecutablePages : Prop :=
  (∀ (m : List Host.Cell) (key v off : Nat) (l : List Nat), scanPage m key = (v, off, l) →
    let len := fun p => (codeAt m (key + p)).len + 2
    let zero := fun p => ∀ a, p ≤ a → a < 65536 → Mem.get m (key + a) = 0
    (v = 0 → (0 ∈ l ∨ l = [] ∧ zero 0) ∧ ∀ p ∈ l, p + 12 * len p ≤ 65536 ∧
      BlockGood (codeAt m (key + p)) ((List.range (len p - 1)).map fun i => codeAt m (key + p + 12 * (i + 1))) ∧
      (p + 12 * len p ∈ l ∨ zero (p + 12 * len p)) ∧ ∀ q ∈ l, p < q → p + 12 * len p ≤ q) ∧ (zero 0 → v = 0)) ∧
  (∀ (s : State) (cl k off : Nat),
    let p := s.partOf (8 * cl)
    let w0 := ringWord s cl 0
    let ask := (askPage cl p (wbitsOf w0 19 8) (ringWord s cl 1)).run ((ringRead cl k off).run { s := s }).2
    ringAt s cl = some (k, off) → k < 4608 → off % 8 = 0 → off + 32 ≤ poolSize →
    (∀ w, (s.syncOf w).getLsbD 1 = false) → Mem.wf s.mem = true → s.errs.single = [] → s.errs.double = [] →
    (s.core k).regs.wpctl.getLsbD 5 = false →
    let answered := fun (w3 : Word) (t : State) =>
      Mem.read64 t.mem (poolKey k (off + 24)) = w3 ∧ (t.syncOf (poolKey k (off + 24) / 8)).getLsbD 0 = true ∧
      (Mem.read64 t.mem (poolKey k (off + 16))).toNat / 2 ^ 56 = 0 ∧ (t.syncOf (poolKey k off / 8)).getLsbD 0 = false ∧
      (t.cluster cl).ring = (s.cluster cl).ring + 1 ∧ (t.cluster cl).mapping = none ∧
      ∀ a, (a < poolKey k (off + 16) ∨ poolKey k (off + 32) ≤ a) → Mem.get t.mem a = Mem.get s.mem a
    (∀ at_ v pa ia, ask.1 = .leaf at_ v pa ia → (s.cluster cl).mapping = none →
      (∀ x ∈ s.ctxsOf p, ∀ y ∈ (s.ctx x.1 x.2).accs, y.far = none) →
      (∀ x ∈ s.ctxsOf p, (s.ctx x.1 x.2).win.trans = []) →
      let waits := fun (t : State) => (t.cluster cl).mapping = some (s.net.engineRefs p (.ia ia), 0) ∧
        (t.cluster cl).ring = (s.cluster cl).ring
      let scan := scanPage s.mem (farKey pa)
      let xslot := wbitsOf (ringWord s cl 2) 13 0
      let x := ((xdirOf cl).run { s := s }).1 + 1024 * xslot
      (ringOp s cl = some 0x01 → scan.1 ≠ 0 → Reaches (exec (.mapExecutable cl) s)
        (answered (verdictWord scan.1 scan.2.1))) ∧
      (ringOp s cl = some 0x01 → scan.1 = 0 → Reaches (exec (.mapExecutable cl) s) fun t =>
        waits t ∧ Mem.read64 t.mem (farKey at_) = execLeaf v xslot ∧
        (∀ i, i < 683 → (x + i < at_ ∨ at_ + 8 ≤ x + i) →
          Mem.get t.mem (farKey (x + i)) = (startBitmap scan.2.2).getD i 0)) ∧
      (ringOp s cl = some 0x02 → Reaches (exec (.withdrawExecutable cl) s) fun t =>
        waits t ∧ Mem.read64 t.mem (farKey at_) = v &&& ~~~((1 : Word) <<< 60) ∧
        ∀ c, ∀ n ∈ (t.cluster c).code, n.line / 1024 ≠ pa / 65536)) ∧
    (∀ l w3, (s.cluster cl).mapping = some (l, w3) → ∀ o n, (o, n) ∈ [(Instr.mapExecutable cl, 0x01),
        (.withdrawExecutable cl, 0x02)] → ringOp s cl = some n →
      ((∃ x ∈ l, s.owed x = true) → exec o s = .next s) ∧
      ((∀ x ∈ l, s.owed x = false) → Reaches (exec o s) (answered w3))))

/-- R199, R217, R229, R232, R233, R237 to R239, R242, R243, R283, R285, R288 and R312: the steps of the engines. A frame of a
CPY or CPYS between ranges of the own pool sends word requests, which free values pick and order: reads of source words it has
not read, reads ahead for later frames, and writes of destination words whose source bytes it holds, a CPYS byte to the place
the swizzle of its row gives. With none of them out it sends some, and when every byte has been sent and acknowledged the frame
is done; after the last frame the job's end goes out with the number of bytes. A job that is cancelled ends at the boundary of
its frames or steps with 0x02, one that is to stop stops there, a tree or diagram job with its record on the way. A step of the
tree or diagram engine runs its job to the step's end: the model keeps the answers of what the job has done and runs its
program again over them (log 50). A CPYX chunk that expands is sent to its place in the page; when all have ended the job ends
with success, or poisons its page for the first failure and ends once the invalidation has been performed (R223). At a pool, a
read gives its job the word as it stands, a read ahead too unless a write of the job's own to that word is on its way, a write
writes its bytes, and the perform of a completion word writes it, FULL, and frees the job's slot. A reservation not used is
given up; a resolved record makes its job ready. Frames and the checks of chunks are the model's choice where log 31 says so,
the form of the requests where log 53 does. -/
def Obligations.EngineSteps : Prop :=
  (∀ (s : State) (cl slot src dst : Nat) (j : Job), pickJob s cl 2 = some (slot, j) → j.resting = false →
    (j.form = (0x30, 3) ∨ j.form = (0x30, 5)) → j.saved = [] → (j.done = 0 → copyBad j = none) → j.done < j.frameCount →
    let f := j.frame j.done
    0 < f.n → classify f.src f.n = .loc src → classify f.dst f.n = .loc dst →
    (∀ i, i < f.n → i ^^^ f.swizzle < f.n ∧ (j.form = (0x30, 3) → j.inSrc (f.dst.toNat + i) = false)) →
    lpuOk (s.core j.core).regs.lprot j.ctx src f.n { r := true } = true →
    lpuOk (s.core j.core).regs.lprot j.ctx dst f.n { w := true } = true → s.nacks cl j.core = false → j.bad = [] →
    let word := fun i => j.word? false (poolKey j.core (src + i) / 8)
    let byte := fun (i v : Nat) => BitVec.ofNat 8 (v / 2 ^ (8 * (poolKey j.core (src + i) % 8)))
    let key := fun i => max (poolKey j.core dst) (poolKey j.core (dst + i) / 8 * 8)
    let done := ∀ i, i < f.n → (word i).isSome = true ∧ key i ∈ j.sent
    Reaches (exec (.copyFrame cl) s) fun t => t.mem = s.mem ∧
      ∃ sent x, t.net.channels = s.net.channels ++ sent ∧ t.jobOf cl slot = some x ∧ x.out = j.out + sent.length ∧
        (∀ y ∈ sent, y.1 = .engine cl 2 ∧
          ((y.2.2.acc.op = .load ∧ (y.2.2.eng.map (·.kind) = some (.read false) ∨ y.2.2.eng.map (·.kind) = some .ahead)) ∨
            (y.2.2.eng.map (·.kind) = some .write ∧ y.2.1 = .pool j.core ∧ ∀ k b, Carries y.2.2 k b →
              ∃ i v, i < f.n ∧ k = poolKey j.core (dst + i) ∧ word (i ^^^ f.swizzle) = some v ∧
                b = byte (i ^^^ f.swizzle) v))) ∧
        (0 < j.out → x.done = j.done) ∧
        (j.out = 0 → (∀ w, s.reading cl slot w = false) →
          (done → sent = [] ∧ x.done = j.done + 1 ∧ x.sent = [] ∧ x.temp = [] ∧ x.edge = true) ∧
          (¬done → sent ≠ [] ∧ x.done = j.done) ∧
          ((∀ i, i < f.n → (word i).isSome = true) → ∀ i v, i < f.n → key i ∉ j.sent → word (i ^^^ f.swizzle) = some v →
            ∃ y ∈ sent, Carries y.2.2 (poolKey j.core (dst + i)) (byte (i ^^^ f.swizzle) v)))) ∧
  (∀ (s : State) (cl slot : Nat) (j : Job), pickJob s cl 2 = some (slot, j) → j.resting = false → j.out = 0 →
    (j.form = (0x30, 3) ∨ j.form = (0x30, 5)) → (j.done = 0 → copyBad j = none) → j.done = j.frameCount →
    let n := if j.form.2 = 3 then field j.desc 24 4 else min (field j.desc 28 4 * field j.desc 24 4) 0xFFFFFFFF
    Reaches (exec (.copyFrame cl) s) (WordSent s cl slot j (doneWord n 0 0) 0)) ∧
  (∀ (s : State) (cl slot : Nat) (j : Job), pickJob s cl 2 = some (slot, j) → j.resting = true → j.out = 0 →
    (j.cancel = true → (j.form = (0x30, 3) ∨ j.form = (0x30, 5)) →
      Reaches (exec (.copyFrame cl) s) (WordSent s cl slot j (doneWord (j.frameBytes j.done) 0x02 0) 0x02)) ∧
    (j.cancel = false → Reaches (exec (.copyFrame cl) s) fun t => t.net = s.net ∧ t.mem = s.mem ∧
      ∃ x, t.jobOf cl slot = some x ∧ x.st = .stopped ∧ x.done = j.done ∧ x.chunks = j.chunks)) ∧
  (∀ (s : State) (cl slot engine : Nat) (j : Job), engine < 2 → pickJob s cl engine = some (slot, j) → j.ending = none →
    let prog := if engine = 0 then treeProg j.form.2 else diagProg j.form.2
    let start : M Unit := do
      if engine = 1 then countCluster cl 0x43
      startJob cl slot engine
    let o := if engine = 0 then Instr.tmeStep cl else .ddeStep cl
    let run := (runJob prog cl slot { j with st := .running }).run (start.run { s := s }).2
    ((j.rests = true → j.cancel = false ∧ j.halting = none ∧ j.stopping = none) →
      (run.2.s.jobOf cl slot).isSome = true →
      (∀ status detail result, run.1.1 = .ok (status, detail, result) →
        Reaches (exec o s) (WordSent run.2.s cl slot run.1.2 (doneWord result status detail) status)) ∧
      (run.1.1 = .error .step → Reaches (exec o s) fun t => t.jobOf cl slot = some run.1.2)) ∧
    (j.rests = true → j.out = 0 →
      (j.cancel = true → j.owned = [] → j.raised = [] →
        Reaches (exec o s) fun t => ∃ r, WordSent s cl slot j (doneWord r 0x02 0) 0x02 t) ∧
      (j.cancel = true → (j.owned ≠ [] ∨ j.raised ≠ []) → Reaches (exec o s) fun t => t.net = s.net ∧ t.mem = s.mem ∧
        ∃ x e, t.jobOf cl slot = some x ∧ x.ending = some e ∧ e.status = 0x02 ∧ e.detail = 0 ∧ e.owned = j.owned) ∧
      (∀ cause, j.cancel = false → j.halting = none → j.stopping = some cause → Reaches (exec o s) fun t => t.mem = s.mem ∧
        ∃ sent x, t.net.channels = s.net.channels ++ sent ∧ t.jobOf cl slot = some x ∧ x.st = .stopped ∧
          x.out = sent.length ∧ (j.sr = none → sent = []) ∧
          ∀ k off i b, j.sr = some (k, off) →
            (if engine = 0 then stopImage s.clk j cause else j.frames.flatten.flatMap (bytesOf 8))[i]? = some b →
            ∃ y ∈ sent, Carries y.2.2 (poolKey k off + i) b))) ∧
  (∀ (s : State) (cl slot i pa : Nat) (ref : FarRef) (j x : Job) (bs : List Byte) (r r' : Run),
    pickJob s cl 2 = some (slot, j) → j.chunkOpen i = true → (j.chunks ≠ [] ∨ j.begun ≠ []) →
    (do startJob cl slot 2; beginChunk cl slot i; expandChunk cl slot i j).run { s := s } = (.ok bs, r) →
    (reach { copyVia cl j true with asid := j.dstAsid } (j.dst + BitVec.ofNat 64 (4096 * i)) 4096).run r =
      (.ok (.far pa ref), r') → r'.s.jobOf cl slot = some x → x.first = true →
    Reaches (exec (.cpyxChunk cl i) s) fun t => ∃ sent, t.net.channels = r'.s.net.channels ++ sent ∧
      (∀ n b, bs[n]? = some b → ∃ y ∈ sent, Carries y.2.2 (farKey (pa + n)) b) ∧
      (∀ y ∈ sent, ∀ k b, Carries y.2.2 k b → ∃ n, bs[n]? = some b ∧ k = farKey (pa + n)) ∧
      ∃ y, t.jobOf cl slot = some y ∧ y.chunks = sset i 0 x.chunks ∧ y.begun = x.begun.erase i ∧
        y.out = x.out + sent.length) ∧
  (∀ (s : State) (cl slot : Nat) (j : Job), pickJob s cl 2 = some (slot, j) → j.form = (0x30, 4) →
    j.resting = false → j.out = 0 → 16 ≤ j.chunks.length →
    ((∀ x ∈ j.chunks, x.2 = 0) → Reaches (exec (.cpyxFinish cl) s) (WordSent s cl slot j (doneWord 65536 0 0) 0)) ∧
    (∀ i r, j.chunks.find? (fun x => x.2 != 0) = some (i, r) →
      let asid := BitVec.ofNat 12 (asidOf j.dstAsid)
      let va := j.dst.toNat % 2 ^ 57
      (j.inv = none → (∀ x ∈ s.ctxsOf j.part, (s.ctx x.1 x.2).accs = [] ∧ (s.ctx x.1 x.2).win.trans = []) →
        Reaches (exec (.cpyxFinish cl) s) fun t => t.net = s.net ∧
          (∃ x, t.jobOf cl slot = some x ∧ x.inv = some (s.net.engineRefs j.part (.page asid va))) ∧
          ∀ v level at_ r1 x r2, (walk1Again cl j.part asid (s1Of j.dstAsid) va 2).run { s := s } = (.leaf v level at_, r1) →
            (stage2 cl j.part (leafBase v level + va % leafSize level)).run r1 = (some x, r2) → Mem.wf r2.s.mem = true →
            Mem.read64 t.mem (farKey x.at_) = x.v ||| 0x6000000000000000) ∧
      (∀ l, j.inv = some l →
        ((∃ x ∈ l, s.owed x = true) → exec (.cpyxFinish cl) s = .next s) ∧
        ((∀ x ∈ l, s.owed x = false) →
          Reaches (exec (.cpyxFinish cl) s) (WordSent s cl slot j (doneWord 0 0x12 (r * 16 + i)) 0x12))))) ∧
  (∀ (s : State) (k off : Nat) (r : Req) (e : EngRef) (j : Job), AtPool s k off r e j →
    (∀ keep, e.kind = .read keep → r.acc.op = .load → Reaches (exec (.perform (.pool k)) s) fun t =>
      let w := (poolKey k off / 8, (Mem.read64 s.mem (8 * (poolKey k off / 8))).toNat)
      t.mem = s.mem ∧ ∃ i, t.jobOf e.cl e.slot = some i ∧ i.out = j.out - 1 ∧
        i.kept = (if keep then w :: j.kept else j.kept) ∧ i.temp = (if keep then j.temp else w :: j.temp)) ∧
    (e.kind = .ahead → r.acc.op = .load → Reaches (exec (.perform (.pool k)) s) fun t =>
      let w := (poolKey k off / 8, (Mem.read64 s.mem (8 * (poolKey k off / 8))).toNat)
      t.mem = s.mem ∧ ∃ i, t.jobOf e.cl e.slot = some i ∧ i.out = j.out - 1 ∧ i.kept = j.kept ∧ i.temp = j.temp ∧
        i.early = (if s.jobSent e.cl e.slot fun n x => n == .write && x.acc.addr / 8 == r.acc.addr / 8 then j.early
          else w :: j.early)) ∧
    (∀ d, e.kind = .write → r.acc.op = .store d → off + d.length ≤ poolSize → Reaches (exec (.perform (.pool k)) s) fun t =>
      (∃ i, t.jobOf e.cl e.slot = some i ∧ i.out = j.out - 1) ∧
      (∀ i b, d[i]? = some (some b) → Mem.get t.mem (poolKey k off + i) = b) ∧
      ∀ a, (∀ i b, d[i]? = some (some b) → a ≠ poolKey k off + i) → Mem.get t.mem a = Mem.get s.mem a) ∧
    (∀ status v, e.kind = .word status true → r.acc.op = .sts v → off % 8 = 0 →
      Reaches (exec (.perform (.pool k)) s) fun t =>
        Mem.read64 t.mem (poolKey k off) = v ∧ (t.syncOf (poolKey k off / 8)).getLsbD 0 = true ∧
        t.jobOf e.cl e.slot = none ∧ (t.cluster e.cl).order = (s.cluster e.cl).order.filter (· != e.slot) ∧
        ∀ a, (a < poolKey k off ∨ poolKey k off + 8 ≤ a) → Mem.get t.mem a = Mem.get s.mem a)) ∧
  (∀ (s : State) (cl slot t₀ : Nat) (g : Word), (s.slotOf cl slot).job = none → (s.slotOf cl slot).res = some (g, t₀) →
    t₀ + 65536 ≤ s.clk.toNat →
    (nextWaiter (s.cluster cl) = none → Reaches (exec (.queueReservationExpiry cl slot) s) fun t =>
      t.slotOf cl slot = { s.slotOf cl slot with res := none }) ∧
    (∀ w, nextWaiter (s.cluster cl) = some w → Reaches (exec (.queueReservationExpiry cl slot) s) fun t =>
      (t.slotOf cl slot).res = some (w.gtid, s.clk.toNat) ∧ (t.cluster cl).waiters = (s.cluster cl).waiters.erase w ∧
      ∃ x, t.net.wakes = s.net.wakes ++ [x] ∧ x.core = w.core ∧ x.ctx = w.ctx ∧ x.gen = w.gen ∧ x.pslot = w.pslot)) ∧
  (∀ (s : State) (cl slot k off : Nat) (j : Job), s.jobOf cl slot = some j → j.record = some (k, off) →
    j.st = .waitRecord → jobRuns s j = true → (s.syncOf (poolKey k off / 8)).getLsbD 0 = true →
    Mem.read64 s.mem (poolKey k off) = 0 → s.errs.double = [] → Reaches (exec (.engineJobResolve cl slot) s) fun t =>
      t.jobOf cl slot = some { j with record := none, st := .ready })

/-- R132, R241, R242, R246, R269, R270, R287, R297, R305, R306, R308 and R311: parts of what jobs of the
engines compute; no clause gives the result of a tree job or of a diagram operation on nodes as a whole. The rules of DAPP for
operands it need not split are those of its operator under every value of its operands; on terminals every diagram operation
gives its terminal, once the descriptor has been read; DREF and DUNREF of a node that has been read send its count, up or down
by one, held at 0xFFFF, and DUNREF of a count of 0 ends with 0x04; mk of equal children is the child, at the end of a step.
TRESUME and DRESUME ask for the restart of the job that their handle names; its perform makes that job ready again and its
word 0 and EMPTY, and writes the own word, with 0x04 where the handle names none. The factors and terms of a leaf's elements are exact before the one
rounding; a node reads as it was written; an image expands token by token, and E4M3 widens to BF16 exactly. -/
def Obligations.EngineJobResults : Prop :=
  (∀ (op f g r : Nat) (den : Nat → Bool), 1 ≤ op → op ≤ 8 → den 0 = false → den 1 = true → applyRule op f g = some r →
    den r = truthOf op (den f) (den g)) ∧
  (∀ (cl slot sub : Nat) (j : Job) (r : Run) (sp : DSpace) (e : EngRun), Opened cl slot sub j r sp e →
    let a := (j.args.getD 0 0).toNat
    let b := (j.args.getD 1 0).toNat
    let op := (j.args.getD 2 0).toNat + 1
    let gives := fun (result : Nat) => ∃ j' r', (runJob (diagProg sub) cl slot j).run r = ((.ok (0, 0, result), j'), r') ∧
      r'.s.mem = e.run.s.mem
    (a < 2 →
      (sub = 1 → b < 2 → op ≤ 8 → gives (if truthOf op (a == 1) (b == 1) then 1 else 0)) ∧ (sub = 2 → gives (1 - a)) ∧
      (sub = 3 → b / 2 ^ 32 < 2 → b % 2 ^ 32 < 2 → gives (if a = 1 then b / 2 ^ 32 else b % 2 ^ 32)) ∧
      (sub = 4 → b % 65536 < sp.nvars → b < 2 ^ 17 → gives a) ∧ (sub = 5 → b < sp.nvars → b < 2 ^ 16 → gives a) ∧
      (sub = 7 ∨ sub = 8 → gives 0xFFFF) ∧ (sub = 10 → gives 0)) ∧
    (2 ≤ a → a < 2 ^ 32 → ∀ w0 w1 top, e.job.word? true (poolKey sp.d.1 (sp.d.2 + 8) / 8) = some top →
      let at_ := poolKey sp.n.1 (sp.n.2 + 16 * a)
      let n := nodeOfWords w0 w1
      sp.d.2 % 8 = 0 → sp.n.2 % 8 = 0 → e.job.word? true (at_ / 8) = some w0 → e.job.word? true ((at_ + 8) / 8) = some w1 →
      w0 < 2 ^ 64 → w1 < 2 ^ 64 → a < top / 2 ^ 32 % 2 ^ 32 → n.ok sp = true →
      let counts := fun (k : Nat) => ∃ j' r' q, (runJob (diagProg sub) cl slot j).run r = ((.error .step, j'), r') ∧
        r'.s.mem = e.run.s.mem ∧ r'.s.net.channels = e.run.s.net.channels ++ [(.engine cl 1, .pool sp.n.1, q)] ∧
        q.acc.op = .store ((bytesOf 2 k).map some) ∧ q.acc.addr = at_ + 4 ∧ j'.out = 1
      (sub = 7 → counts (if n.count = 0xFFFF then 0xFFFF else n.count + 1)) ∧
      (sub = 8 → n.count ≠ 0 → counts (if n.count = 0xFFFF then 0xFFFF else n.count - 1)) ∧
      (sub = 8 → n.count = 0 → ∃ p, ((runJob (diagProg sub) cl slot j).run r).1.1 = .error (.finish 0x04 2 p)))) ∧
  (∀ (sp : DSpace) (v n : Nat) (e : EngRun),
    (e.left = [] → (ExceptT.run (dMk sp v n n)).run e = (.error .step, { e with fresh := [] :: e.fresh })) ∧
    ∀ x t, e.left = x :: t → (ExceptT.run (dMk sp v n n)).run e = (.ok n, { e with left := t })) ∧
  (∀ (cl slot off : Nat) (j : Job) (r : Run), j.log = [] → j.out = 0 → field j.desc 10 6 = 0 →
    let home := 8 * cl + j.core % 8
    let w := fieldWord j.desc 0
    let h := field j.desc 8 2
    ((runJob (diagProg 11) cl slot j).run r).1.1 = .error (.resume h [0x11]) ∧
    (classify w 8 = .loc off → w.toNat % 8 = 0 → r.s.nacks cl home = false →
      lpuOk (r.s.core home).regs.lprot j.ctx off 8 { w := true, s := true } = true →
      ((runJob (treeProg 10) cl slot j).run r).1.1 = .error (.resume h [0x10, 0x12]))) ∧
  (∀ (s : State) (k off h : Nat) (oks : List Nat) (bad v : Word) (r : Req) (e : EngRef) (j : Job), AtPool s k off r e j →
    e.kind = .resume h oks bad → r.acc.op = .sts v → off % 8 = 0 →
    let t := h / 256 % 64
    let ended := fun (w : Word) (u : State) => Mem.read64 u.mem (poolKey k off) = w ∧
      (u.syncOf (poolKey k off / 8)).getLsbD 0 = true ∧ u.jobOf e.cl e.slot = none
    (s.jobOf e.cl t = none → Reaches (exec (.perform (.pool k)) s) (ended bad)) ∧
    (∀ i st, s.jobOf e.cl t = some i → t ≠ e.slot → h < 2 ^ 16 → h / 2 ^ 14 = e.engine →
      (s.slotOf e.cl t).gen.toNat = h % 256 → i.engine = e.engine → i.part = j.part → i.st = .suspended st → st.toNat ∈ oks →
      s.nacks e.cl i.w.1 = false → i.w.2 % 8 = 0 →
      (poolKey i.w.1 i.w.2 + 8 ≤ poolKey k off ∨ poolKey k off + 8 ≤ poolKey i.w.1 i.w.2) →
      Reaches (exec (.perform (.pool k)) s) fun u =>
        ended (doneWord h 0 0) u ∧ u.jobOf e.cl t = some { i with st := .ready } ∧
        Mem.read64 u.mem (poolKey i.w.1 i.w.2) = 0 ∧ (u.syncOf (poolKey i.w.1 i.w.2 / 8)).getLsbD 0 = false)) ∧
  (∀ (pay pay' : Nat) (xs ys : List FVal) (ps qs : List Rat), xs.map FVal.rat? = ps.map some →
    ys.map FVal.rat? = qs.map some → (fvProd pay xs).rat? = some ps.prod ∧
      (fvSumProd .rne pay (pay, xs) (pay', ys)).rat? = some (ps.prod + qs.prod)) ∧
  (∀ (x kind fmt s rankm1 count w1 w2 w3 : Nat), kind < 16 → fmt < 16 → s < 32 → rankm1 < 128 → count < 2 ^ 32 →
    let n : Node := { ref := x, w0 := nodeW0 kind fmt s rankm1 count, w1 := w1, w2 := w2, w3 := w3 }
    n.kind = kind ∧ n.fmt = fmt ∧ n.s = s ∧ n.rankm1 = rankm1 ∧ n.count = count) ∧
  (∀ (fuel n e : Nat) (rest out lit : List Byte),
    expand (fuel + 1) [] out e = (if out.length = e then some out else none) ∧
    (n < 0x80 → expand (fuel + 1) (BitVec.ofNat 8 n :: rest) out e =
      if e < out.length + n + 1 then none else expand fuel rest (out ++ List.replicate (n + 1) 0) e) ∧
    (0x80 ≤ n → n < 256 → lit.length = n - 0x7F → expand (fuel + 1) (BitVec.ofNat 8 n :: (lit ++ rest)) out e =
      if e < out.length + lit.length then none else expand fuel rest (out ++ lit) e) ∧
    (0x80 ≤ n → n < 256 → rest.length < n - 0x7F → expand (fuel + 1) (BitVec.ofNat 8 n :: rest) out e = none)) ∧
  (∀ b : Byte, (b.toNat % 128 ≠ 0x7F → (bf16.decode (widen b)).rat? = (e4m3.decode b.toNat).rat?) ∧
    (b.toNat % 128 = 0x7F → widen b = b.toNat / 128 * 32768 + 0x7FC0))

/-! ### Stops, saves and containment -/

/-- R334 to R337: a raise aborts every executing block that has not passed its commit point, to run again from its start; a
block whose commit point is on its way stays, marked to abort should it come back unperformed; the stop area gets an entry of 32 bytes for each context, cluster by cluster 4,608 bytes apart, and its header with the source, the
task and the clock. After the grace period a pre-emption stops at block boundaries, 4,096 clocks later it aborts the blocks that
still run. A task at a blocking point is written to the next save record with its registers and the block it goes on
at, and its context is FREE; a deque record likewise; the header tells the number of records and the clock of the request. -/
def Obligations.StopsAndSaves : Prop :=
  (∀ (s : State) (n : Nat) (p : Partition) (src : EclipseSource) (g : Word) (l : List (EclipseSource × Word)),
    s.part? n = some p → p.raises = (src, g) :: l → p.eclipse = none →
    (∀ cl ∈ p.map, (s.cluster cl).current = Vector.replicate 3 none) →
    Reaches (exec (.eclipseRaise n src) s) fun t =>
      t.part? n = some { p with raises := l, eclipse := some { source := sourceNumber src, gtid := g, clk := s.clk.toNat } } ∧
      (∀ x ∈ s.ctxsOf n, x.2 < 16 → let c := s.ctx x.1 x.2
        c.status = .active → c.phase = .run → c.win.committed = false → c.accs = [] →
        let d := t.ctx x.1 x.2
        d.phase = .fetch c.win.addr 0 ∧ d.win = {} ∧ d.regs = c.regs) ∧
      (∀ x ∈ s.ctxsOf n, x.2 < 16 → let c := s.ctx x.1 x.2
        c.status = .active → c.phase = .run → c.win.committed = true →
        t.ctx x.1 x.2 = { c with win := { c.win with doomed := true } }) ∧ t.mem = s.mem) ∧
  (∀ (s : State) (n : Nat) (p : Partition) (e : Eclipse), Mem.wf s.mem = true → s.part? n = some p → p.eclipse = some e →
    e.written = false → (∀ x ∈ s.ctxsOf n, (s.ctx x.1 x.2).atRest = true) → s.jobsOut p = false →
    Reaches (exec (.stopAreaWrite n) s) fun t =>
      t.part? n = some { p with eclipse := some { e with written := true } } ∧
      Mem.read64 t.mem (farKey p.stopa) = BitVec.ofNat 64 (e.source + p.map.length * 2 ^ 16) ∧
      Mem.read64 t.mem (farKey (p.stopa + 8)) = e.gtid ∧
      Mem.read64 t.mem (farKey (p.stopa + 16)) = BitVec.ofNat 64 e.clk ∧
      (∀ i cl, p.map[i]? = some cl → ∀ k c, k < 8 → c < 16 →
        Mem.read t.mem (farKey (p.stopa + 64 + 4608 * i + 512 * k + 32 * c)) 32 =
          ctxEntry (s.ctx (8 * cl + k) c) (s.containing cl))) ∧
  (∀ (s : State) (n : Nat) (p : Partition) (q : Preempt), s.preempt? n = some (p, q) →
    (q.stage = .grace → q.clk + 2 ^ 20 ≤ s.clk.toNat → Reaches (exec (.preemptGraceExpiry n) s) fun t =>
      t.part? n = some { p with preempt := some { q with stage := .block } } ∧ t.ctxs = s.ctxs) ∧
    (q.stage = .block → q.clk + 2 ^ 20 + 4096 ≤ s.clk.toNat → Reaches (exec (.preemptAbortExpiry n) s) fun t =>
      t.part? n = some { p with preempt := some { q with stage := .abort } } ∧
      (∀ x ∈ s.ctxsOf n, x.2 < 16 → let c := s.ctx x.1 x.2
        c.status = .active → c.phase = .run → c.win.committed = false → c.accs = [] →
        (t.ctx x.1 x.2).phase = .fetch c.win.addr 0 ∧ (t.ctx x.1 x.2).regs = c.regs) ∧
      (∀ x ∈ s.ctxsOf n, x.2 < 16 → let c := s.ctx x.1 x.2
        c.status = .active → c.phase = .run → c.win.committed = true →
        t.ctx x.1 x.2 = { c with win := { c.win with doomed := true } }))) ∧
  (∀ (s : State) (n core : Nat) (p : Partition) (q : Preempt), Mem.wf s.mem = true → s.preempt? n = some (p, q) →
    q.stage ≠ .saved → q.small = false → 64 + 576 * (q.records + 1) ≤ p.saveSize →
    let at_ := farKey (p.savea + 64 + 576 * q.records)
    let counted := fun (t : State) => ∃ p' q', t.part? n = some p' ∧ p'.preempt = some q' ∧ q'.records = q.records + 1
    (∀ c a m, nextSave s p = some (core, .ctx c) → (s.ctx core c).saveable q.stage = true →
      (s.ctx core c).phase = .fetch a m → Reaches (exec (.saveRecordWrite n) s) fun t =>
        counted t ∧ Freed (s.ctx core c) (t.ctx core c) ∧ recordRegs (Mem.read t.mem at_ 576) = (s.ctx core c).regs ∧
        Mem.read64 t.mem at_ = a ∧ Mem.read64 t.mem (at_ + 8) = (s.ctx core c).task.gtid ∧
        (Mem.read64 t.mem (at_ + 96)).toNat % 8 = 2) ∧
    (∀ d, nextSave s p = some (core, .deque d) → Reaches (exec (.saveRecordWrite n) s) fun t =>
        counted t ∧ (t.core core).deque = (s.core core).deque.erase d ∧ Mem.read64 t.mem at_ = d.entry ∧
        Mem.read64 t.mem (at_ + 8) = d.arg0 ∧ Mem.read64 t.mem (at_ + 16) = d.arg1 ∧ Mem.read64 t.mem (at_ + 24) = d.join ∧
        Mem.read64 t.mem (at_ + 32) = d.gtid ∧ (Mem.read64 t.mem (at_ + 96)).toNat % 8 = 4)) ∧
  (∀ (s : State) (n : Nat) (p : Partition) (q : Preempt), Mem.wf s.mem = true → s.preempt? n = some (p, q) →
    q.stage ≠ .saved → q.small = false → allSaved s p = true → Reaches (exec (.saveHeaderWrite n) s) fun t =>
      t.part? n = some { p with preempt := some { q with stage := .saved } } ∧
      (Mem.read64 t.mem (farKey p.savea)).toNat = q.records % 2 ^ 32 ∧
      Mem.read64 t.mem (farKey (p.savea + 8)) = BitVec.ofNat 64 q.clk)

/-- R340: containment raises the eclipse line of every partition with a cluster in the umbra, then fences it, then resets its
cores together, its pools 0 and EMPTY, its contexts FREE with their generations advanced, and no core outside; then it is
recorded in flash and in both EVENT registers (R355). A NACK ends the task that receives it. That a context's registers and
its job-slot record stand at their defaults after a reset is the model's choice (log 18), and so is the form of the notice
(log 25). -/
def Obligations.ContainmentSteps : Prop :=
  (∀ (s : State) (n : Nat) (u : Umbra), s.umbra? n = some u →
    let staged := fun (st : UmbraStage) (t : State) => t.umbra? n = some { u with stage := st }
    (u.stage = .consumed → (s.parts.map (·.1)).Nodup → Reaches (exec (.containment n) s) fun t => staged .raised t ∧
      ∀ m p, s.part? m = some p → (∃ k ∈ p.map, k ∈ clustersOf u) →
        t.part? m = some { p with raises := p.raises ++ [(.containment, 0)] }) ∧
    (u.stage = .raised → Reaches (exec (.umbraFence n) s) fun t => staged .fenced t ∧ t.ctxs = s.ctxs ∧ t.mem = s.mem) ∧
    (u.stage = .fenced → s.net.homes = [] → Mem.wf s.mem = true → Reaches (exec (.umbraReset n) s) fun t => staged .reset t ∧
      (∀ cl ∈ clustersOf u, ∀ i, i < 8 → let k := 8 * cl + i
        (∀ off, off < poolSize → Mem.get t.mem (poolKey k off) = 0 ∧ t.syncOf (poolKey k off / 8) = 0) ∧
        (∀ c, c < 16 → (t.ctx k c).status = .free ∧ (t.ctx k c).gen = (s.ctx k c).gen + 1 ∧ (t.ctx k c).regs = {}) ∧
        (t.core k).regs = {} ∧ (t.core k).deque = [] ∧ (t.core k).arrivals = [] ∧ (t.core k).wakeTable = [] ∧
        (∀ j, j < 64 → t.slotOf cl j = { gen := (s.slotOf cl j).gen + 1 })) ∧
      (∀ core c, core / 8 ∉ clustersOf u → c < 16 → t.ctx core c = s.ctx core c ∧ t.core core = s.core core ∧
        ∀ off, off < poolSize → Mem.get t.mem (poolKey core off) = Mem.get s.mem (poolKey core off))) ∧
    (u.stage = .reset → n < 64 → Reaches (exec (.containmentNotice n) s) fun t => staged .noticed t ∧
      t.mgmt.flash.containments = s.mgmt.flash.containments ++ [n] ∧
      ∀ i, i < 2 → (vget {} t.mgmt.ports i).event.getLsbD 3 = true ∧
        wbitsOf (vget {} t.mgmt.ports i).event 37 32 = n)) ∧
  (∀ (s : State) (core ctx : Nat) (g : BitVec 8) (l : List (Nat × Nat × BitVec 8)),
    let c := s.ctx core ctx
    s.net.umbraNacks = (core, ctx, g) :: l → c.gen = g → c.status = .active → c.phase = .run → c.accs = [] →
    Reaches (exec (.nackReceived core ctx) s) fun t =>
      t.net.umbraNacks = l ∧ (t.ctx core ctx).phase = .killing ∧ (t.ctx core ctx).win = {})

/-! ### Host queues, mailboxes and the module -/

/-- R347 to R350, R353, R355, R358 and R359: a doorbell sets TAIL and CHEAD within the ring's reach, and else, for an excess of
either, stops its queue; a peer's goes to the queues of its link; a peer write lands on a present writable page. An entry that
is admitted becomes a launch; a refused, a deferred one and one whose queue names no partition are answered with status 2, 1 and
4. A launch with every root placed and no task left is answered under its tag with CLK and the phase. Unmasking sends a held
message; reading STAT or EVENT returns it and clears DONE or the events, other offsets read OP, PARAM and 0; a write of OP starts
a request, one at PARAM sets its word. That an entry is admitted whose ENTRY lies outside FAR, and that a doorbell may move TAIL
backward within the ring, is the model's choice (log 44). -/
def Obligations.HostSteps : Prop :=
  let record := fun (s : State) (q : Nat) (tag : BitVec 16) (status roots : Nat) (t : State) =>
    let w := s.queue q
    let n := w.ctail.toNat
    let a := busKey w.loc (w.cring.toNat + 16 * (n % 2 ^ w.log2n))
    let r := (Mem.read64 t.mem a).toNat
    r % 2 ^ 16 = tag.toNat ∧ r / 2 ^ 16 % 256 = status ∧ r / 2 ^ 24 % 2 ^ 32 = roots % 2 ^ 32 ∧
      r.testBit 63 = decide (n / 2 ^ w.log2n % 2 = 0) ∧ Mem.read64 t.mem (a + 8) = s.clk ∧ (t.queue q).ctail = w.ctail + 1
  (∀ (s : State) (port q : Nat) (v : Word), port < 2 → q < 8192 → s.mgmt.start = .running → (s.queue q).en = true →
    let w := s.queue q
    let tail : BitVec 32 := v.setWidth 32
    let chead : BitVec 32 := v.extractLsb' 32 32
    ((tail - w.head).toNat ≤ 2 ^ w.log2n → (w.ctail - chead).toNat ≤ 2 ^ w.log2n →
      Reaches (exec (.doorbell port q v) s) fun t => t.queue q = { w with tail := tail, chead := chead }) ∧
    (2 ^ w.log2n < (tail - w.head).toNat ∨ 2 ^ w.log2n < (w.ctail - chead).toNat → Reaches (exec (.doorbell port q v) s) fun t =>
      t.queue q = { w with en := false } ∧ (vget {} t.mgmt.ports 0).event.getLsbD 0 = true ∧
        wbitsOf (vget {} t.mgmt.ports 0).event 28 16 = q) ∧
    (∀ link, (linkPart s link).isSome = true → w.loc = link + 2 → (tail - w.head).toNat ≤ 2 ^ w.log2n →
      (w.ctail - chead).toNat ≤ 2 ^ w.log2n →
      Reaches (exec (.peerDoorbell link q v) s) fun t => t.queue q = { w with tail := tail, chead := chead })) ∧
  (∀ (s : State) (link n : Nat) (ia : BitVec 48) (d : List Byte) (p : Partition) (y : S2), s.mgmt.start = .running →
    Mem.wf s.mem = true → linkPart s link = some n → s.part? n = some p → d ≠ [] → ia.toNat % 65536 + d.length ≤ 65536 →
    ((stage2 (p.map.headD 0) n ia.toNat).run { s := s }).1 = some y → leafSt y.v = 2 → y.v.getLsbD 59 = true →
    Reaches (exec (.peerWrite link ia d) s) fun t =>
      (∀ i b, d[i]? = some b → Mem.get t.mem (farKey (y.pa + i)) = b) ∧
      (∀ a, (a < farKey y.pa ∨ farKey y.pa + d.length ≤ a) → Mem.get t.mem a = Mem.get s.mem a)) ∧
  (∀ (s : State) (q : Nat),
    let w := s.queue q
    let b := entryBytes s w
    let x := field b 16 8
    w.en = true → w.head ≠ w.tail → (w.ctail + BitVec.ofNat 32 w.taken - w.chead).toNat < 2 ^ w.log2n →
    s.mgmt.start = .running → Mem.wf s.mem = true →
    (entryBad w b = true → Reaches (exec (.launchEntry q) s) fun t =>
      (t.queue q).head = w.head + 1 ∧ t.launches = s.launches ∧ record s q (BitVec.ofNat 16 (x / 2 ^ 48)) 2 0 t) ∧
    (entryBad w b = false → s.part? w.part = none → Reaches (exec (.launchEntry q) s) fun t =>
      (t.queue q).head = w.head + 1 ∧ t.launches = s.launches ∧ record s q (BitVec.ofNat 16 (x / 2 ^ 48)) 4 0 t) ∧
    (∀ p, entryBad w b = false → s.part? w.part = some p → entryDeferred s p w.part (bits x 33 32) (fieldWord b 48) = true →
      Reaches (exec (.launchEntry q) s) fun t =>
        (t.queue q).head = w.head + 1 ∧ t.launches = s.launches ∧ record s q (BitVec.ofNat 16 (x / 2 ^ 48)) 1 0 t) ∧
    (∀ p, entryBad w b = false → s.part? w.part = some p → entryDeferred s p w.part (bits x 33 32) (fieldWord b 48) = false →
      Reaches (exec (.launchEntry q) s) fun t =>
        (t.queue q).head = w.head + 1 ∧ (t.queue q).taken = w.taken + 1 ∧ t.nextLaunch = s.nextLaunch + 1 ∧
        ∃ l, t.launch? s.nextLaunch = some l ∧ l.queue = q ∧ l.part = w.part ∧ l.entry = fieldWord b 0 ∧
          l.arg = fieldWord b 8 ∧ l.n = x % 2 ^ 32 ∧ l.tag = BitVec.ofNat 16 (x / 2 ^ 48) ∧ l.tvec = fieldWord b 32 ∧
          l.tsb = fieldWord b 40 ∧ l.placed = 0 ∧ l.live = 0 ∧ l.done = false)) ∧
  (∀ (s : State) (n : Nat) (l : Launch), s.launch? n = some l → l.done = false → l.n ≤ l.placed → l.live = 0 →
    Mem.wf s.mem = true → Reaches (exec (.launchCompletion n) s) fun t =>
      t.launch? n = some { l with done := true } ∧ (t.queue l.queue).taken = (s.queue l.queue).taken - 1 ∧
      record s l.queue l.tag (if l.terminated then 3 else 0) l.placed t) ∧
  (∀ (s : State) (port : Nat), port < 2 →
    let p := vget {} s.mgmt.ports port
    (∀ v, v < 64 → Reaches (exec (.msixUnmask port v) s) fun t =>
      let r := vget {} t.mgmt.ports port
      r.masked.getLsbD v = false ∧ r.pending.getLsbD v = false ∧
        r.sent = (if p.pending.getLsbD v then p.sent ++ [v] else p.sent)) ∧
    Reaches (exec (.statRead port) s) (fun t =>
      let r := vget {} t.mgmt.ports port
      r = { p with read := r.read, done := false } ∧ r.read.getLsbD 63 = p.busy ∧ r.read.getLsbD 62 = p.done ∧
        r.read.extractLsb' 0 8 = p.status ∧ r.read.extractLsb' 8 32 = p.count) ∧
    Reaches (exec (.eventRead port) s) (fun t => vget {} t.mgmt.ports port = { p with read := p.event, event := 0 }) ∧
    (p.readAt 0 = p.op.setWidth 64 ∧ (∀ i, i < 8 → p.readAt (0x40 + 8 * i) = p.param.getD i 0) ∧
      ∀ o, (0x18 ≤ o ∧ o < 0x40) ∨ 0x80 ≤ o → p.readAt o = 0) ∧
    (∀ v, p.busy = true → exec (.mailboxWrite port 0 v) s = .next s) ∧
    (∀ v, p.busy = false → Reaches (exec (.mailboxWrite port 0 v) s) fun t =>
      vget {} t.mgmt.ports port = { p with op := v.setWidth 8, busy := true } ∧
        t.mgmt.reqs = s.mgmt.reqs ++ [{ path := .mailbox port, op := v.setWidth 8, param := p.param }]) ∧
    (∀ i v, i < 8 → Reaches (exec (.mailboxWrite port (0x40 + 8 * i) v) s) fun t =>
      vget {} t.mgmt.ports port = { p with param := p.param.set i v } ∧ t.mgmt.reqs = s.mgmt.reqs))

/-- R106, R116, R351, R356, R357, R360, R362, R364 and R367: a start with an image whose two signatures
verify, itself or its copy, takes the configuration record, or the previous one where a signature of the record does not verify
or its version is refused, and brings up partition 0 from it over the whole module with the pools 0 and EMPTY; with no image or
no record only management runs. A frame brings the written table into force, in the clock in which it was written too (DEDUCED,
log 24). The clock advances CLK by 1 and a counter of source 0x01 with it; MTCs of the clock stand at its end (DEDUCED, log 49);
of each core's send queue one message goes (the model's choice, log 54). A die above 95 °C and the cooling of every die are told to both
hosts; a die above 105 °C asks every partition to stop, and 100 ms later the dies lose power with their state, while flash and
every memory outside the dies stay; what goes and what stays is read as log 23 says (DEDUCED). That a start nothing is said of
passes (log 1), what the configuration record holds, and that the event of the power removal is given when the die is still
that hot (log 8), are the model's choice. -/
def Obligations.ModuleSteps : Prop :=
  (∀ s : State, s.mgmt.start ≠ .running → Mem.wf s.mem = true →
    let f := s.mgmt.flash
    let took := fun (r : ConfigRecord) (t : State) =>
      t.mgmt.start = .running ∧ t.part? 0 = some (partZero r) ∧ t.mgmt.flash.inUse = r ∧ t.mgmt.flash.accepted = r.version ∧
      t.mgmt.flash.starts = f.starts + 1 ∧
      t.mgmt.flash.overtemp = false ∧ t.mgmt.meshSlots = Vector.replicate 64 64 ∧ t.mgmt.memSlots = Vector.replicate 64 64 ∧
      ∀ core off, core < 4608 → off < poolSize →
        Mem.get t.mem (poolKey core off) = 0 ∧ t.syncOf (poolKey core off / 8) = 0 ∧ (t.core core).regs.partw = r.partw
    let ok := fun (x : Signed) => x.rsa = true ∧ x.slh = true
    let good := fun (r : ConfigRecord) => ok r.signed ∧ f.accepted.toNat ≤ r.version.toNat
    let boots := ok f.copy ∨ ((vget {} f.steps 2).outcome ≠ 2 ∧ ok f.image)
    let first := (vget {} f.steps 3).outcome ≠ 2 ∧ good f.record
    (boots → first → Reaches (exec (.moduleStart []) s) (took f.record)) ∧
    (boots → ¬first → good f.previous → Reaches (exec (.moduleStart []) s) (took f.previous)) ∧
    (¬boots ∨ (¬good f.record ∧ ¬good f.previous) →
      Reaches (exec (.moduleStart []) s) fun t => t.mgmt.start = .managementOnly ∧ t.parts = s.parts ∧ t.mem = s.mem ∧
        t.mgmt.flash.inUse = f.inUse ∧ t.mgmt.flash.accepted = f.accepted ∧ t.mgmt.flash.starts = f.starts + 1)) ∧
  (∀ (s : State) (mem : Bool) (v : Vector (BitVec 7) 64), s.mgmt.nextSlots = [(mem, v)] →
    (s.clk.toNat % 512 = 0 → Reaches (exec .timeSlotFrame s) fun t => t.mgmt.nextSlots = [] ∧
      t.mgmt.memSlots = (if mem then v else s.mgmt.memSlots) ∧ t.mgmt.meshSlots = (if mem then s.mgmt.meshSlots else v)) ∧
    (s.clk.toNat % 512 ≠ 0 → exec .timeSlotFrame s = .next s)) ∧
  (∀ s : State, s.clockDone = true → (s.cores.map (·.1)).Nodup → (s.clusters.map (·.1)).Nodup → Reaches (exec .clock s) fun t =>
    t.clk = s.clk + 1 ∧ t.evlog = [] ∧ t.mem = s.mem ∧ t.ctxs = s.ctxs ∧
    (∀ k, (t.core k).mtcs = [] ∧ (t.cluster k).mtcs = []) ∧
    (let queued := fun (u : State) (k : Nat) => (u.net.channels.filter fun x => x.2.2.queued && x.2.2.core == k).length
     let sent := fun (u : State) => u.net.channels.map fun x => (x.1, x.2.1, { x.2.2 with queued := false })
     (∀ k, queued t k = queued s k - 1) ∧ sent t = sent s) ∧
    (∀ k n, n < 4 → s.evlog = [] → (s.core k).mtcs = [] → vget 0 (s.core k).regs.evsel n = 1 →
      vget 0 (t.core k).regs.evcnt n = vget 0 (s.core k).regs.evcnt n + 1) ∧
    ∀ k i j v w, i < j → j < 8 → (s.cluster k).mtcs = [(j, 0x2B, w)] ∨
      (s.cluster k).mtcs = [(i, 0x2B, v), (j, 0x2B, w)] ∨ (s.cluster k).mtcs = [(j, 0x2B, w), (i, 0x2B, v)] →
      (t.cluster k).regs.pagerq = w) ∧
  (∀ (s : State) (d : Nat),
    (d < 8 → Reaches (exec (.dieAbove95 d) s) fun t => d ∈ t.mgmt.hot95 ∧ (∀ x ∈ s.mgmt.hot95, x ∈ t.mgmt.hot95) ∧
      ∀ i, i < 2 → (vget {} t.mgmt.ports i).event.getLsbD 1 = true) ∧
    (s.mgmt.hot95 ≠ [] → Reaches (exec .dieBackAt90 s) fun t => t.mgmt.hot95 = [] ∧ t.mgmt.hot105 = [] ∧
      ∀ i, i < 2 → (vget {} t.mgmt.ports i).event.getLsbD 2 = true) ∧
    (d < 8 → (s.parts.map (·.1)).Nodup → Reaches (exec (.dieAbove105 d) s) fun t =>
      t.mgmt.hot105 = s.mgmt.hot105.filter (fun x => x.1 != d) ++ [(d, s.clk.toNat)] ∧
      ∀ n p, s.part? n = some p → t.part? n = some { p with raises := p.raises ++ [(.controller, 0)] })) ∧
  (∀ (s : State) (d n : Nat), (d, n) ∈ s.mgmt.hot105 → n + 225000000 ≤ s.clk.toNat → Mem.wf s.mem = true →
    Reaches (exec .overtempPowerRemoval s) fun t =>
      t.mgmt.start = .unpowered ∧ t.mgmt.flash = { s.mgmt.flash with overtemp := true } ∧ t.parts = [] ∧ t.ctxs = [] ∧
        t.launches = [] ∧ t.sync = [] ∧ (∀ a, a < poolKey 4608 0 → Mem.get t.mem a = 0) ∧
        ∀ a, poolKey 4608 0 ≤ a → Mem.get t.mem a = Mem.get s.mem a)

/-! ### Management and debug requests -/

/-- R333 to R339, R344, R351 to R354, R356 and R391: what the requests of the management path do, and their answers. Creation
gives the partition its clusters, roots and areas and every core its PARTW; destruction of a quiesced one resets its clusters and
removes it; a queue is set up; pre-emption begins and its answer waits; resumption returns a saved task to its core; a
time-slot table is loaded for the next frame; a table of umbrae that covers every cluster once replaces the old one; a
task found on a context, wherever that stands, begins to end and is answered once its context is FREE or holds another task, no
other of that GTID with it; one found in a deque is taken out, and one that is found nowhere is answered at once. Status 5 and the check of fields (log 44), the order of the search for a task (log 25) and
what the device keeps of a saved task (log 43) are the model's choice. -/
def Obligations.PartitionRequests : Prop :=
  ∀ (s : State) (port : Nat) (p : List Word),
    let g := fun i => (p.getD i 0).toNat
    let path := ReqPath.mailbox port
    let only := fun (n : Nat) => ∀ i, n ≤ i → i < 8 → p.getD i 0 = 0
    (∀ m, Asked s port 0x10 p →
      fieldsOk (p.map (·.toNat)) [mask [(5, 0), (9, 8), (27, 16), (56, 32)], mask [(23, 0)], mask [(47, 0)], mask [(47, 0)],
        mask [(47, 0)], allBits, allBits, mask [(9, 0)]] = true →
      wbitsOf (p.getD 0 0) 19 16 + wbitsOf (p.getD 0 0) 23 20 + wbitsOf (p.getD 0 0) 27 24 ≤ 8 →
      wbitsOf (p.getD 0 0) 43 32 + wbitsOf (p.getD 0 0) 56 44 ≤ 4096 → partwOk (p.getD 1 0) = true →
      ((readMap path (g 6) (g 7)).run { s := s }).1 = some m → s.part? (g 0 % 64) = none →
      (∀ k ∈ m, s.owner k = none) → Reaches (exec (.createPartition path) s) fun t => Answered port 0 0 t ∧
        (∃ x, t.part? (g 0 % 64) = some x ∧ x.map = m ∧ x.sup = (g 0).testBit 8 ∧ x.be = (g 0).testBit 9 ∧ x.s2root = g 2 ∧
          x.stopa = g 3 ∧ x.savea = g 4 ∧ x.saveSize = g 5 ∧ x.partw = p.getD 1 0 ∧ x.eclipse = none ∧ x.preempt = none) ∧
        ∀ k ∈ m, ∀ i, i < 8 → (t.core (8 * k + i)).regs.partw = p.getD 1 0) ∧
    (∀ x, Asked s port 0x11 p → g 0 < 64 → only 1 → s.part? (g 0) = some x → x.quiesced = true → s.net.homes = [] →
      Reaches (exec (.destroyPartition path) s) fun t => Answered port 0 0 t ∧ t.part? (g 0) = none ∧
        ∀ k ∈ x.map, ∀ i c, i < 8 → c < 16 → (t.ctx (8 * k + i) c).status = .free ∧
          ∀ off, off < poolSize → Mem.get t.mem (poolKey (8 * k + i) off) = 0) ∧
    (Asked s port 0x12 p →
      fieldsOk (p.map (·.toNat)) [mask [(12, 0), (17, 16), (23, 20), (28, 24), (37, 32), (41, 40)], allBits, allBits] = true →
      wbitsOf (p.getD 0 0) 23 20 ≤ 9 → 0 < wbitsOf (p.getD 0 0) 28 24 → wbitsOf (p.getD 0 0) 28 24 ≤ 16 → g 1 % 64 = 0 →
      g 2 % 16 = 0 → Reaches (exec (.setQueue path) s) fun t => Answered port 0 0 t ∧
        let w := p.getD 0 0
        let q := t.queue (g 0 % 8192)
        q.en = w.getLsbD 16 ∧ q.ie = w.getLsbD 17 ∧ q.loc = wbitsOf w 23 20 ∧ q.log2n = wbitsOf w 28 24 ∧
          q.part = wbitsOf w 37 32 ∧ q.qclass = wbitsOf w 41 40 ∧ q.ring = p.getD 1 0 ∧ q.cring = p.getD 2 0 ∧
          q.head = 0 ∧ q.tail = 0 ∧ q.chead = 0 ∧ q.ctail = 0) ∧
    (∀ x, Asked s port 0x13 p → g 0 < 64 → only 1 → s.part? (g 0) = some x → x.preempt = none →
      (∀ cl ∈ x.map, (s.cluster cl).current = Vector.replicate 3 none) →
      Reaches (exec (.preemptPartition path) s) fun t => Begun port 0x13 p t ∧
        t.part? (g 0) = some { x with preempt := some { stage := .grace, clk := s.clk.toNat } }) ∧
    (∀ x q k tk root, Asked s port 0x14 p → g 0 < 64 → only 1 → s.part? (g 0) = some x → x.preempt = some q →
      q.stage = .saved → q.records = 1 → let bs := saveRecord s x 0
      recKind bs = 2 → physIn x (recCore bs) = some k → s.fencedHome (.pool k) = false → keptTask q (fieldWord bs 8) = some (tk, root) →
      Reaches (exec (.resumePartition path) s) fun t => Answered port 0 0 t ∧
        t.part? (g 0) = some { x with preempt := none } ∧
        (t.core k).requeue = (s.core k).requeue ++ [.runnable (fieldWord bs 0) (recordRegs bs)
          { tk with sup := (s.partRec k).sup } ((field bs 96 8).testBit 4)]) ∧
    (Asked s port 0x15 p → g 0 < 2 → only 2 →
      (∀ i, i < 64 → (Mem.get s.mem (busKey port (g 1) + i)).getLsbD 7 = false) →
      Reaches (exec (.setTimeSlotTables path) s) fun t => Answered port 0 0 t ∧
        ∃ v, t.mgmt.nextSlots = s.mgmt.nextSlots ++ [(decide (g 0 = 1), v)] ∧
          ∀ i, i < 64 → vget 0 v i = (Mem.get s.mem (busKey port (g 1) + i)).setWidth 7) ∧
    (∀ us : List Umbra, Asked s port 0x16 p → only 2 → g 1 = us.length → 0 < us.length → us.length ≤ 64 →
      (us.map (·.id)).Nodup → (∀ u ∈ us, u.id < 64 ∧ u.x0 ≤ u.x1 ∧ u.y0 ≤ u.y1 ∧ u.x1 < 24 ∧ u.y1 < 24 ∧
        u.stage = ((s.umbra? u.id).map (·.stage)).getD .ok) →
      (∀ k, k < 576 → ∃ i, i < us.length ∧ ∀ j, j < us.length → (k ∈ (us[j]?.map clustersOf).getD [] ↔ j = i)) →
      (∀ i u, us[i]? = some u → Mem.read64 s.mem (busKey port (g 0) + 8 * i) =
        BitVec.ofNat 64 (u.id + u.x0 * 2 ^ 8 + u.y0 * 2 ^ 16 + u.x1 * 2 ^ 24 + u.y1 * 2 ^ 32)) →
      Reaches (exec (.setUmbrae path) s) fun t => Answered port 0 0 t ∧ t.mgmt.umbrae = us) ∧
    (Asked s port 0x17 p → only 1 →
      let v := p.getD 0 0
      let holds := fun (d : Ctx) => d.status ≠ .free ∧ d.task.gtid = v
      (∀ k c l m, s.ctxs = l ++ (ctxKey k c, s.ctx k c) :: m → c < 16 → holds (s.ctx k c) → (∀ x ∈ l, ¬holds x.2) →
        Reaches (exec (.terminateTask path) s) fun t => Begun port 0x17 p t (some (k, c, (s.ctx k c).gen)) ∧
          let f := (t.ctx k c).phase
          (f = .killing ∨ f = .after .terminate ∨ (f = .ending ∧ (s.ctx k c).phase = .ending)) ∧
          ((s.ctx k c).phase = .run → (s.ctx k c).accs = [] → f = .killing)) ∧
      ((∀ x ∈ s.ctxs, ¬holds x.2) → (∀ x ∈ s.cores, ∀ y ∈ x.2.pslots, y.2.st = .reserved ∨ y.2.task.gtid ≠ v) →
        (∀ k d l m, (s.core k).deque = l ++ d :: m → d.gtid = v → (∀ y ∈ l, y.gtid ≠ v) →
          (∀ x ∈ s.cores, x.1 ≠ k → ∀ y ∈ x.2.deque, y.gtid ≠ v) → keysRise s.cores →
          Reaches (exec (.terminateTask path) s) fun t => Answered port 0 0 t ∧ (t.core k).deque = l ++ m ∧
            t.ctxs = s.ctxs) ∧
        ((∀ x ∈ s.cores, (∀ y ∈ x.2.deque, y.gtid ≠ v) ∧ (∀ y ∈ x.2.arrivals, y.task.gtid ≠ v) ∧
            ∀ a r tk h, Requeue.runnable a r tk h ∈ x.2.requeue → tk.gtid ≠ v) →
          (∀ x ∈ s.parts, ∀ q, x.2.preempt = some q → ∀ y ∈ q.tasks, y.1.gtid ≠ v) →
          Reaches (exec (.terminateTask path) s) fun t => Answered port 0 0 t ∧ t.ctxs = s.ctxs ∧ t.cores = s.cores ∧
            t.parts = s.parts))) ∧
    (∀ k c n, port < 2 → s.mgmt.start = .running → p.length = 8 → only 1 → Begun port 0x17 p s (some (k, c, n)) →
      (s.ctx k c).status = .free ∨ (s.ctx k c).gen ≠ n → Reaches (exec (.terminateTask path) s) fun t =>
        Answered port 0 0 t ∧ t.ctxs = s.ctxs ∧ t.cores = s.cores ∧ t.parts = s.parts)

/-- R334, R335, R353, R354, R361, R363, R369, R370 and R374: the requests that read and debug. A result lands in the buffer, with
its length as count. A raise asks for the line and waits; a release lowers it and its contexts go on. A debugger attaches and
detaches, sets a breakpoint entry, releases a halted context, reads any context's record and writes a HALTED one's. An
operation that is none of the table's is answered with 3. The layout of the attestation report (log 10), the module's core
number in 0x1E and 0x1F (log 20) and the order in which requests are served (log 44) are the model's choice. -/
def Obligations.DebugRequests : Prop :=
  ∀ (s : State) (port : Nat) (p : List Word),
    let g := fun i => (p.getD i 0).toNat
    let path := ReqPath.mailbox port
    let only := fun (n : Nat) => ∀ i, n ≤ i → i < 8 → p.getD i 0 = 0
    let buffer := ∀ i, 1 ≤ i → i < 6 → p.getD i 0 = 0
    let out := busKey port (g 7)
    (Asked s port 0x18 p → p.getD 0 0 = 0 → buffer → 112 ≤ g 6 → g 6 < 2 ^ 32 →
      Reaches (exec (.readStartRecord path) s) fun t => Answered port 0 112 t ∧
        Mem.read t.mem out 112 = startRecord s.mgmt.flash) ∧
    (Asked s port 0x19 p → p.getD 4 0 = 0 → p.getD 5 0 = 0 → 32 ≤ g 6 → g 6 < 2 ^ 32 →
      Reaches (exec (.attestationReport path) s) fun t =>
        (∃ n, Answered port (if g 6 < n then 6 else 0) n t) ∧
        (∀ i, i < 4 → Mem.read64 t.mem (out + 8 * i) = p.getD i 0) ∧
        let body := reportBody s ((p.take 4).flatMap fun w => bytesOf 8 w.toNat)
        (body.length ≤ g 6 → Mem.read t.mem out body.length = body)) ∧
    (∀ x, s.part? (g 0 % 64) = some x →
      (Asked s port 0x1A p → (g 0 = g 0 % 64 + 256) → only 1 → x.eclipse = none →
        Reaches (exec (.raiseEclipseLine path) s) fun t => Begun port 0x1A p t ∧
          t.part? (g 0 % 64) = some { x with raises := x.raises ++ [(.controller, 0)] }) ∧
      (g 0 < 64 → only 1 →
        let lowered := fun (t : State) => Answered port 0 0 t ∧ t.part? (g 0) = some { x with eclipse := none } ∧
          ∀ y ∈ s.ctxsOf (g 0), (s.ctx y.1 y.2).status = .halted → (s.ctx y.1 y.2).haltBy = some .line →
            (t.ctx y.1 y.2).status = .active ∧ (t.ctx y.1 y.2).phase = (s.ctx y.1 y.2).phase
        Asked s port 0x1A p → Reaches (exec (.releaseEclipseLine path) s) lowered) ∧
      (g 0 = g 0 % 64 + 256 → only 1 → x.attached = true → Asked s port 0x1D p →
        Reaches (exec (.releasePartition path) s) fun t => Answered port 0 0 t ∧
          t.part? (g 0 % 64) = some { x with eclipse := none }) ∧
      (Asked s port 0x1B p → only 1 →
        (g 0 = g 0 % 64 + 256 → Reaches (exec (.attach path) s) fun t => Answered port 0 0 t ∧
          t.part? (g 0 % 64) = some { x with attached := true }) ∧
        (g 0 < 64 → Reaches (exec (.detach path) s) fun t => Answered port 0 0 t ∧
          t.part? (g 0) = some { x with attached := false })) ∧
      (∀ n, Asked s port 0x1C p → n < 16 → g 0 = g 0 % 64 + 256 * n → g 1 % 2 ^ 62 = 0 → only 4 → x.attached = true →
        Reaches (exec (.setBreakpoint path) s) fun t => Answered port 0 0 t ∧
          ∃ y, t.part? (g 0 % 64) = some y ∧ vget {} y.bps n =
            ⟨(p.getD 1 0).getLsbD 63, (p.getD 1 0).getLsbD 62, p.getD 2 0, p.getD 3 0⟩) ∧
      (∀ id ctx k h, Asked s port 0x1D p → id < 8192 → ctx < 16 → g 0 = g 0 % 64 + id * 2 ^ 16 + ctx * 2 ^ 32 → only 1 →
        x.attached = true → physIn x id = some k → (s.ctx k ctx).status = .halted → (s.ctx k ctx).haltBy = some h →
        h ≠ .line → Reaches (exec (.releaseContext path) s) fun t => Answered port 0 0 t ∧
          let d := t.ctx k ctx
          d.status = .active ∧ d.regs = (s.ctx k ctx).regs ∧ d.phase = (s.ctx k ctx).phase ∧
            d.task.skip.blk = (s.ctx k ctx).nextBlock ∧ (h = .bkpt → d.task.skip.bkpt = true) ∧
            (h = .breakpoint → d.task.skip.brk = true) ∧ (h = .watch → d.task.skip.watch = true))) ∧
    (∀ core ctx, core < 4608 → ctx < 16 → g 0 = core + ctx * 2 ^ 16 → (s.partRec core).attached = true →
      (Asked s port 0x1E p → buffer → 576 ≤ g 6 → g 6 < 2 ^ 32 → Reaches (exec (.readContext path) s) fun t =>
        Answered port 0 576 t ∧ recordRegs (Mem.read t.mem out 576) = (s.ctx core ctx).regs ∧
          Mem.read64 t.mem (out + 8) = (s.ctx core ctx).task.gtid) ∧
      (Asked s port 0x1F p → only 2 → (s.ctx core ctx).status = .halted → Reaches (exec (.writeContext path) s) fun t =>
        Answered port 0 0 t ∧ (t.ctx core ctx).regs = recordRegs (Mem.read s.mem (busKey port (g 1)) 576) ∧
          (t.ctx core ctx).status = .halted)) ∧
    (∀ cl, cl < 576 → (s.owner cl).isNone = true ∨ (s.partRec (8 * cl)).attached = true → Asked s port 0x20 p → buffer →
      g 6 < 2 ^ 32 →
      (g 0 = cl → 2048 ≤ g 6 → Reaches (exec (.readJobQueue path) s) fun t => Answered port 0 2048 t ∧
        ∀ i, i < 64 → Mem.read t.mem (out + 32 * i) 32 = slotBytes s (s.slotOf cl i)) ∧
      (∀ j, j < 8 → g 0 = cl + 2 ^ 16 + j * 2 ^ 20 → 2048 ≤ g 6 → Reaches (exec (.readWakeTable path) s) fun t =>
        Answered port 0 2048 t ∧ ∀ i e, i < 256 → (s.core (8 * cl + j)).wakeTable.find? (fun x => x.1 == i) = some (i, e) →
          Mem.read64 t.mem (out + 8 * i) = BitVec.ofNat 64 (wakeWord s e)) ∧
      (g 0 = cl + 2 * 2 ^ 16 → 9216 ≤ g 6 → (∀ r ∈ (s.cluster cl).trace, r.length = 6) →
        Reaches (exec (.readCopyTrace path) s) fun t => Answered port 0 9216 t ∧
          ∀ i j r w, i < 192 → (s.cluster cl).trace[i]? = some r → r[j]? = some w →
            Mem.read64 t.mem (out + 48 * i + 8 * j) = w)) ∧
    (∀ op : BitVec 8, Asked s port op p → op.toNat < 0x10 ∨ 0x20 < op.toNat →
      Reaches (exec (.unknownOperation path op) s) (Answered port 3 0))

/-! ### Words, steps and the whole machine -/

/-- R25 to R32 and R44: the word of any form decodes to that form, with every operand at every value. -/
def Obligations.DecodeEncode : Prop := ∀ (i : Instr) (w : Code), encode i = some w → decode w = some i

/-- R25 to R32: words written out in the spec's tables decode to the forms they stand for. -/
def Obligations.SpecWordsDecode : Prop :=
  decode 0x010000C0_10000000_00000000#96 = some (.add { t := { t0 := some (.greg 1) } }) ∧
  decode 0x02E00380_40000000_00000010#96 = some (.lea { xf := 3, t := { t0 := some (.slot .a 4) }, z := 16 }) ∧
  decode 0x03700080_6C020000_00000000#96 =
    some (.rot { t := { t0 := some (.slot .a 6), t1 := some (.greg 2) } }) ∧
  decode 0x042010B0_5B060000_00000000#96 =
    some (.clt { wd := .w, t := { t0 := some (.slot .p 5), t1 := some (.slot .p 6) } }) ∧
  decode 0x05400080_10000000_00000012#96 = some (.get { t := { t0 := some (.slot .a 1) }, vec := true, reg := 2 }) ∧
  decode 0x065003C0_20000000_00000000#96 = some (.fma { xf := 3, t := { t0 := some (.greg 2) } }) ∧
  decode 0x07080000_00000000_01000042#96 = some (.bra { gm := .onFalse, exit := 1, z := 66 }) ∧
  decode 0x103006C1_10000000_00000000#96 = some (.vfma { xf := 6, t := { t0 := some (.vreg 1) } }) ∧
  decode 0x20308380_50000000_00000008#96 = some (.ldd { ord := true, lsid := 3, t := { t0 := some (.slot .a 5) }, z := 8 }) ∧
  decode 0x20D20200_00000000_00000000#96 = some (.vst { rx := true, lsid := 2 }) ∧
  decode 0x22900180_60000000_00000010#96 = some (.acas { lsid := 1, t := { t0 := some (.slot .a 6) }, z := 16 }) ∧
  decode 0x300000C0_40000000_00100000#96 = some (.hwait { t := { t0 := some (.greg 4) }, z := 0x100000 })

/-- R64, R67 and R190: a step takes the turn the state names. In an open slot of a context whose block has a ready
instruction that decodes, the step is `exec` of that instruction: the tokens that are due have landed, the slot is used and
counted, and everything else is as it was; a complete block commits in the slot (R69), and a full NI send queue stalls it (R66);
a device step is `exec` of its instruction; a slot that is not open passes. A form placed at reset is the one the next step
runs. The list of turns is the model's own (log 1). -/
def Obligations.StepRunsDecoded : Prop :=
  (∀ (s : State) (k c idx : Nat) (x : Inst) (o : Instr) (l : List Turn), s.sched = .slot k c :: l → k < 4608 → c < 16 →
    let d := (s.ctx k c).onWin fun w => w.land s.clk.toNat
    slotOpen (s.ctx k c) c s.clk.toNat = true → d.status = .active → d.phase = .run → d.busy ≤ s.clk.toNat →
    s.niFull k c = false → d.complete = false → d.pointFails = false → d.choose = some (idx, x) → decode x.word = some o →
    ∃ u, step s = exec o u ∧ u.cur = ⟨k, c, idx⟩ ∧ u.ctx k c = { d with lastSlot := some s.clk.toNat } ∧ u.sched = l ∧
      u.mem = s.mem ∧ u.sync = s.sync ∧ u.cores = s.cores ∧ u.clusters = s.clusters ∧ u.parts = s.parts ∧ u.net = s.net ∧
      u.mgmt = s.mgmt ∧ u.clk = s.clk ∧ u.evlog = s.evlog ++ [(true, k, 0x02, c, 1)] ∧
      ∀ j e, j < 4608 → e < 16 → (j, e) ≠ (k, c) → u.ctx j e = s.ctx j e) ∧
  (∀ (s : State) (k c : Nat) (l : List Turn), s.sched = .slot k c :: l → k < 4608 → c < 16 →
    let d := (s.ctx k c).onWin fun w => w.land s.clk.toNat
    slotOpen (s.ctx k c) c s.clk.toNat = true → d.status = .active → d.phase = .run → d.busy ≤ s.clk.toNat →
    (s.niFull k c = true → Reaches (step s) fun t => t.ctx k c = { d with lastSlot := some s.clk.toNat } ∧ t.sched = l ∧
      t.mem = s.mem ∧ t.evlog = s.evlog ++ [(true, k, 0x07, c, 1)]) ∧
    (s.niFull k c = false → d.complete = true → ∃ u, step s = exec (.blockCommit k c) u ∧ u.cur = ⟨k, c, 0⟩ ∧
      u.ctx k c = d ∧ u.sched = l ∧ u.mem = s.mem)) ∧
  (∀ (s : State) (i : Instr) (l : List Turn), s.sched = .event i :: l → i.info = none → i.wellFormed = true →
    step s = exec i { s with sched := l }) ∧
  (∀ (s : State) (k c : Nat) (l : List Turn), s.sched = .slot k c :: l → slotOpen (s.ctx k c) c s.clk.toNat = false →
    step s = .next { s with sched := l }) ∧
  (∀ (w : Code) (i : Instr), decode w = some i →
    ∃ u x, step (State.reset.withFetchWord 96 w.toNat) = exec i u ∧ u.cur = {} ∧ u.curCtx.win.insts = [x] ∧ x.word = w ∧
      x.issued = false)

/-- Every step has a next state: no fault of this machine stops it (R327). The rest is the model's own form (log 1 and log 9
for its own fields): every step keeps memory and every table of the state in canonical form, keeps the carrier capacity, never
gives back a free value it has drawn, and uses the one turn it took. -/
def Obligations.StepKeepsCanonical : Prop :=
  ∀ s : State, ∃ t, step s = .next t ∧
    (Canonical s → Canonical t ∧ t.capacity = s.capacity ∧ s.freeCtr ≤ t.freeCtr ∧ t.sched = s.sched.tail)

/-- R79, R93, R116, R165, R205, R227 and R339: at module reset every pool byte is 0 and every pool word EMPTY without a
waiter; CLK, every sequence counter, every generation and PAGERQ are 0, no context holds a task, each die is one umbra under
its own number; and the state is canonical. That no deque, job slot or memory key holds anything at reset (log 2, log 4, log 5) is
the model's choice. -/
def Obligations.ResetState : Prop :=
  let s := State.reset
  Canonical s ∧ (∀ k off, Mem.get s.mem (poolKey k off) = 0 ∧ s.syncOf (poolKey k off / 8) = 0) ∧ s.clk = 0 ∧
    (∀ k, (s.core k).seq = 0 ∧ (s.core k).deque = []) ∧ (∀ k c, (s.ctx k c).status = .free ∧ (s.ctx k c).gen = 0) ∧
    (∀ cl, (s.cluster cl).regs.pagerq = 0 ∧ ∀ j, (s.slotOf cl j).gen = 0 ∧ s.jobOf cl j = none) ∧
    s.mgmt.umbrae.map (·.id) = [0, 1, 2, 3, 4, 5, 6, 7] ∧
    ∀ u ∈ s.mgmt.umbrae, u.x0 = 12 * (u.id % 2) ∧ u.x1 = 12 * (u.id % 2) + 11 ∧ u.y0 = 6 * (u.id / 2) ∧
      u.y1 = 6 * (u.id / 2) + 5 ∧ u.stage = .ok

/-- R33, R36 and R39: a scalar integer, logic, predicate or floating-point form, and a MOVE form that touches no control
register, changes the window of its own block and nothing else: no register, no memory, no other context, whatever its
operands. -/
def Obligations.TokenFormsFrame : Prop :=
  ∀ (i : Instr) (f : FormInfo) (s t : State), i.info = some f → Sys2Proof.Machine.FormInfo.onlyToken f → exec i s = .next t →
    t = s ∨ ∃ w, t = s.withWin fun _ => w

/-- R34: a form whose guard does not let it act, or one of whose data slots holds a null token (ISNULL apart), performs no
action and raises no fault: it emits null to every target, a memory-class form has resolved without an access, an exit has not
exited, and an irrevocable form has marked the commit point. -/
def Obligations.NullFiring : Prop :=
  ∀ (i : Instr) (f : FormInfo) (s : State) (x : Inst), i.info = some f → i.wellFormed = true →
    s.curCtx.win.insts[s.cur.idx]? = some x → decode x.word = some i → x.issued = false →
    (∀ y ∈ formSlots f, (x.slot y).isSome = true) → (x.word.gm ≠ .none → x.p.isSome = true) →
    ((x.word.gm = .onTrue ∧ (x.tok .p = .null ∨ (x.tok .p).pred = false)) ∨
      (x.word.gm = .onFalse ∧ (x.tok .p = .null ∨ (x.tok .p).pred = true)) ∨
      ((∀ g, i ≠ .isnull g) ∧ ∃ y ∈ formSlots f, x.slot y = some .null)) →
    ∃ due, exec i s = .next (s.nulled (x.word.outs f) f.irr due)

/-- R42 and R105: the exit signature at a commit through any exit but RFE (which restores the one that was saved) is the old
one turned left by 5, with the block's address bits and the exit number; a block that writes XSIG with MTC commits with the
value written instead. -/
def Obligations.SignatureAtCommit : Prop :=
  ∀ (s : State) (core ctx : Nat) (e : ExitFired) (x : Instr) (n : Nat) (v : Option Word),
    let c := s.ctx core ctx
    let w := c.win
    SlotFor s core ctx → c.complete = true → w.commitPoint = none ∨ v.isSome = true → w.sigBad = false → c.lost = none →
    stackBelow w = none → w.exits = [e] → w.mtc = v.map (fun x => ((0x0A : BitVec 8), x)) →
    (w.insts[e.idx]?).bind (fun i => decode i.word) = some x →
    (∃ f : FmtB, n = f.exit.toNat ∧ (x = .bra f ∨ x = .jmp f ∨ x = .call f ∨ x = .ret f ∨ x = .tend f ∨ x = .trap f ∨
      x = .mig f)) ∨ (∃ f : FmtS, n = 0 ∧ x = .halt f) →
    Reaches (exec (.blockCommit core ctx) s) fun t => (t.ctx core ctx).regs.xsig =
      v.getD (c.regs.xsig.rotateLeft 5 ^^^ (w.addr.extractLsb' 2 30).setWidth 64 ^^^ BitVec.ofNat 64 n)

end
end

