-- ==== Sys2Proof/Laws/Mem.lean ====
section
/-! SUPPORT. Memory: reading after writing, and the canonical form kept by every memory operation. -/

namespace Sys2Proof.Machine

theorem Mem.sortedFrom_mono {m : List Host.Cell} {a b : Nat} (hab : a ≤ b) (h : Mem.sortedFrom b m = true) :
    Mem.sortedFrom a m = true := by
  cases m with
  | nil => rfl
  | cons c t =>
    simp only [Mem.sortedFrom, Bool.and_eq_true, decide_eq_true_eq] at h ⊢
    exact ⟨⟨by omega, h.1.2⟩, h.2⟩

theorem Mem.get_below {m : List Host.Cell} : ∀ {lo k : Nat}, Mem.sortedFrom lo m = true → k < lo → Mem.get m k = Mem.absent := by
  induction m with
  | nil => intros; rfl
  | cons c t ih =>
    intro lo k h hk
    simp only [Mem.sortedFrom, Bool.and_eq_true, decide_eq_true_eq] at h
    have : ¬ c.1 = k := by omega
    simp only [Mem.get, beq_iff_eq, this, if_false]
    exact ih h.2 (by omega)

theorem Mem.put_sorted {k : Nat} {b : Byte} {m : List Host.Cell} :
    ∀ {lo : Nat}, Mem.sortedFrom lo m = true → lo ≤ k → Mem.sortedFrom lo (Mem.put k b m) = true := by
  induction m with
  | nil =>
    intro lo _ hk
    unfold Mem.put
    split
    · rfl
    · rename_i hb
      simpa [Mem.sortedFrom, hk] using hb
  | cons c t ih =>
    intro lo h hk
    obtain ⟨j, v⟩ := c
    have h' := h
    simp only [Mem.sortedFrom, Bool.and_eq_true, decide_eq_true_eq] at h
    obtain ⟨⟨h1, h2⟩, h3⟩ := h
    unfold Mem.put
    split
    · split
      · exact h'
      · rename_i hkj hb
        simp only [Mem.sortedFrom, Bool.and_eq_true, decide_eq_true_eq]
        exact ⟨⟨hk, by simpa using hb⟩, ⟨⟨by omega, h2⟩, h3⟩⟩
    · split
      · rename_i hjk
        have hjk : j = k := by simpa using hjk
        subst hjk
        split
        · exact Mem.sortedFrom_mono (by omega) h3
        · rename_i hb
          simp only [Mem.sortedFrom, Bool.and_eq_true, decide_eq_true_eq]
          exact ⟨⟨hk, by simpa using hb⟩, h3⟩
      · rename_i hkj hjk
        have hjk : ¬ j = k := by simpa using hjk
        simp only [Mem.sortedFrom, Bool.and_eq_true, decide_eq_true_eq]
        exact ⟨⟨h1, h2⟩, ih h3 (by omega)⟩

/-- Writing keeps the canonical form. -/
theorem Mem.put_wf {k : Nat} {b : Byte} {m : List Host.Cell} (h : Mem.wf m = true) : Mem.wf (Mem.put k b m) = true :=
  Mem.put_sorted h (Nat.zero_le k)

theorem Mem.wipe_sorted {a b : Nat} {m : List Host.Cell} :
    ∀ {lo : Nat}, Mem.sortedFrom lo m = true → Mem.sortedFrom lo (Mem.wipe a b m) = true := by
  induction m with
  | nil => intros; rfl
  | cons c t ih =>
    intro lo h
    obtain ⟨j, v⟩ := c
    simp only [Mem.sortedFrom, Bool.and_eq_true, decide_eq_true_eq] at h
    unfold Mem.wipe
    rw [List.filter_cons]
    split
    · simp only [Mem.sortedFrom, Bool.and_eq_true, decide_eq_true_eq]
      exact ⟨h.1, ih h.2⟩
    · exact Mem.sortedFrom_mono (by omega) (ih h.2)

/-- Wiping a range keeps the canonical form. -/
theorem Mem.wipe_wf {a b : Nat} {m : List Host.Cell} (h : Mem.wf m = true) : Mem.wf (Mem.wipe a b m) = true :=
  Mem.wipe_sorted h

theorem Mem.get_put_sorted {k : Nat} {b : Byte} {m : List Host.Cell} :
    ∀ {lo : Nat}, Mem.sortedFrom lo m = true → ∀ j, Mem.get (Mem.put k b m) j = if j = k then b else Mem.get m j := by
  induction m with
  | nil =>
    intro lo _ j
    unfold Mem.put
    split
    · rename_i hb
      have : b = Mem.absent := by simpa using hb
      simp [Mem.get, this]
    · by_cases hj : j = k
      · simp [Mem.get, hj]
      · simp [Mem.get, hj, Ne.symm hj]
  | cons c t ih =>
    intro lo h j
    obtain ⟨i, v⟩ := c
    have hall := h
    simp only [Mem.sortedFrom, Bool.and_eq_true, decide_eq_true_eq] at h
    obtain ⟨⟨h1, h2⟩, h3⟩ := h
    unfold Mem.put
    split
    · rename_i hki
      split
      · rename_i hb
        have hb : b = Mem.absent := by simpa using hb
        split
        · rename_i hj
          have hne : ¬ i = k := by omega
          simp only [Mem.get, beq_iff_eq, hj, hne, if_false]
          rw [hb]; exact Mem.get_below h3 (by omega)
        · rfl
      · simp only [Mem.get, beq_iff_eq]
        by_cases hj : j = k
        · simp [hj]
        · simp [hj, Ne.symm hj]
    · split
      · rename_i hik
        have hik : i = k := by simpa using hik
        subst hik
        split
        · rename_i hb
          have hb : b = Mem.absent := by simpa using hb
          split
          · rename_i hj; subst hj; rw [hb]; exact Mem.get_below h3 (by omega)
          · rename_i hj; simp [Mem.get, Ne.symm hj]
        · by_cases hj : j = i
          · simp [Mem.get, hj]
          · simp [Mem.get, hj, Ne.symm hj]
      · rename_i hki hik
        have hik : ¬ i = k := by simpa using hik
        simp only [Mem.get, beq_iff_eq]
        by_cases hj : i = j
        · subst hj; simp [hik]
        · simp only [hj, if_false]; exact ih h3 j

/-- A byte read after a write to memory in canonical form. -/
theorem Mem.get_put {m : List Host.Cell} (h : Mem.wf m = true) (k j : Nat) (b : Byte) :
    Mem.get (Mem.put k b m) j = if j = k then b else Mem.get m j := Mem.get_put_sorted h j

theorem Mem.get_wipe (a b : Nat) (m : List Host.Cell) (j : Nat) :
    Mem.get (Mem.wipe a b m) j = if a ≤ j ∧ j < b then Mem.absent else Mem.get m j := by
  induction m with
  | nil => simp [Mem.wipe, Mem.get]
  | cons c t ih =>
    obtain ⟨i, v⟩ := c
    unfold Mem.wipe at ih ⊢
    rw [List.filter_cons]
    by_cases hin : a ≤ i ∧ i < b
    · have hf : (!(decide (a ≤ i) && decide (i < b))) = false := by simp [hin.1, hin.2]
      simp only [hf, Bool.false_eq_true, if_false]
      by_cases hj : i = j
      · subst hj; rw [ih]; simp only [hin, and_self, if_true]
      · simpa only [Mem.get, beq_iff_eq, hj, if_false] using ih
    · have hf : (!(decide (a ≤ i) && decide (i < b))) = true := by
        rw [Bool.not_eq_true', Bool.and_eq_false_iff, decide_eq_false_iff_not, decide_eq_false_iff_not]; omega
      simp only [hf, if_true, Mem.get, beq_iff_eq]
      by_cases hj : i = j
      · subst hj; rw [if_pos rfl, if_neg hin, if_pos rfl]
      · simp only [hj, if_false]; exact ih

/-- The length of a number's bytes, and of a read. -/
@[simp] theorem bytesOf_length (n v : Nat) : (bytesOf n v).length = n := by
  induction n generalizing v with
  | zero => rfl
  | succ n ih => simp [bytesOf, ih]

@[simp] theorem Mem.read_length (m : List Host.Cell) (k n : Nat) : (Mem.read m k n).length = n := by simp [Mem.read]

/-- Little-endian bytes give back their number (R2). -/
theorem ofBytes_bytesOf (n v : Nat) : ofBytes (bytesOf n v) = v % 256 ^ n := by
  induction n generalizing v with
  | zero => simp [bytesOf, ofBytes, Nat.mod_one]
  | succ n ih =>
    have h : (256 : Nat) ^ (n + 1) = 256 * 256 ^ n := Nat.pow_succ'
    rw [bytesOf, ofBytes, ih, BitVec.toNat_ofNat, h, Nat.mod_mul]

end Sys2Proof.Machine
end

