-- ==== Sys2Proof/Laws/State.lean ====
section
/-! SUPPORT. The state: tables read after they are written, and one lemma for each field under each primitive change. -/

namespace Sys2Proof.Machine

/-! ### Tables -/

/-- Keys of a table strictly rise from a bound. -/
def Table.sortedFrom {α : Type} (lo : Nat) : List (Nat × α) → Bool
  | [] => true
  | (j, _) :: t => lo ≤ j && Table.sortedFrom (j + 1) t

@[simp] theorem sget_sset_same {α : Type} (d : α) (k : Nat) (v : α) (l : List (Nat × α)) : sget d k (sset k v l) = v := by
  induction l with
  | nil => simp [sset, sget]
  | cons c t ih =>
    obtain ⟨j, u⟩ := c
    unfold sset
    split
    · simp [sget]
    · split
      · simp [sget]
      · rename_i h
        simp only [sget, h, if_false, Bool.false_eq_true, ih]

theorem sget_sset_other {α : Type} (d : α) {k j : Nat} (h : j ≠ k) (v : α) (l : List (Nat × α)) :
    sget d j (sset k v l) = sget d j l := by
  induction l with
  | nil => simp [sset, sget, Ne.symm h]
  | cons c t ih =>
    obtain ⟨i, u⟩ := c
    unfold sset
    split
    · simp [sget, Ne.symm h]
    · split
      · rename_i hik
        have hik : i = k := by simpa using hik
        simp [sget, hik, Ne.symm h]
      · simp only [sget, ih]

@[simp] theorem sset_sset {α : Type} (k : Nat) (u v : α) (l : List (Nat × α)) : sset k v (sset k u l) = sset k v l := by
  induction l with
  | nil => simp [sset]
  | cons c t ih =>
    obtain ⟨j, w⟩ := c
    rw [sset.eq_2 k u, sset.eq_2 k v]
    split
    · simp [sset]
    · split
      · simp [sset]
      · rename_i h1 h2
        rw [sset.eq_2 k v, if_neg h1, if_neg h2, ih]

theorem Table.sortedFrom_mono {α : Type} {l : List (Nat × α)} {a b : Nat} (hab : a ≤ b)
    (h : Table.sortedFrom b l = true) : Table.sortedFrom a l = true := by
  cases l with
  | nil => rfl
  | cons c t =>
    simp only [Table.sortedFrom, Bool.and_eq_true, decide_eq_true_eq] at h ⊢
    exact ⟨by omega, h.2⟩

/-- Writing an entry keeps the keys rising. -/
theorem sset_sorted {α : Type} {k : Nat} {v : α} {l : List (Nat × α)} :
    ∀ {lo : Nat}, Table.sortedFrom lo l = true → lo ≤ k → Table.sortedFrom lo (sset k v l) = true := by
  induction l with
  | nil => intro lo _ hk; simp [sset, Table.sortedFrom, hk]
  | cons c t ih =>
    intro lo h hk
    obtain ⟨j, u⟩ := c
    simp only [Table.sortedFrom, Bool.and_eq_true, decide_eq_true_eq] at h
    unfold sset
    split
    · simp only [Table.sortedFrom, Bool.and_eq_true, decide_eq_true_eq]
      exact ⟨hk, by omega, h.2⟩
    · split
      · rename_i hjk
        have hjk : j = k := by simpa using hjk
        subst hjk
        simp only [Table.sortedFrom, Bool.and_eq_true, decide_eq_true_eq]
        exact h
      · rename_i h1 hjk
        have hjk : ¬ j = k := by simpa using hjk
        simp only [Table.sortedFrom, Bool.and_eq_true, decide_eq_true_eq]
        exact ⟨h.1, ih h.2 (by omega)⟩

/-- Leaving entries out keeps the keys rising. -/
theorem Table.filter_sorted {α : Type} (p : Nat × α → Bool) {l : List (Nat × α)} :
    ∀ {lo : Nat}, Table.sortedFrom lo l = true → Table.sortedFrom lo (l.filter p) = true := by
  induction l with
  | nil => intros; rfl
  | cons c t ih =>
    intro lo h
    simp only [Table.sortedFrom, Bool.and_eq_true, decide_eq_true_eq] at h
    rw [List.filter_cons]
    split
    · simp only [Table.sortedFrom, Bool.and_eq_true, decide_eq_true_eq]
      exact ⟨h.1, ih h.2⟩
    · exact Table.sortedFrom_mono (by omega) (ih h.2)

/-- The synchronising state of a word after it is set, and of every other word. -/
theorem sget_setSync (w : Nat) (v : BitVec 2) (l : List (Nat × BitVec 2)) (j : Nat) :
    sget 0 j (setSync w v l) = if j = w then v else sget 0 j l := by
  unfold setSync
  split
  · rename_i hv
    have hv : v = 0 := by simpa using hv
    subst hv
    induction l with
    | nil => simp [sget]
    | cons c t ih =>
      obtain ⟨i, u⟩ := c
      rw [List.filter_cons]
      by_cases hi : i = w
      · subst hi
        simp only [bne_self_eq_false, Bool.false_eq_true, if_false, ih, sget, beq_iff_eq]
        by_cases hj : j = i
        · simp [hj]
        · simp [hj, Ne.symm hj]
      · simp only [bne_iff_ne, ne_eq, hi, not_false_eq_true, if_true, sget, beq_iff_eq, ih]
        by_cases hj : i = j
        · subst hj; simp [hi]
        · simp [hj]
  · by_cases hj : j = w
    · subst hj; simp
    · rw [if_neg hj, sget_sset_other _ hj]

/-! ### Register files by number -/

@[simp] theorem vget_vset_same {α : Type} {n : Nat} (d : α) (v : Vector α n) (i : Nat) (x : α) (h : i < n) :
    vget d (vset v i x) i = x := by simp [vget, vset, h]

theorem vget_vset_other {α : Type} {n : Nat} (d : α) (v : Vector α n) {i j : Nat} (x : α) (h : j ≠ i) :
    vget d (vset v i x) j = vget d v j := by
  simp [vget, vset, Ne.symm h]

/-! ### Agents read after one of them is written -/

theorem ctxKey_inj {k c k' c' : Nat} (h : c < 16) (h' : c' < 16) (e : ctxKey k c = ctxKey k' c') : k = k' ∧ c = c' := by
  unfold ctxKey at e; omega

@[simp] theorem State.ctx_apply_same (s : State) (k c : Nat) (x : Ctx) : ((Eff.ctx k c x).apply s).ctx k c = x := by
  simp [State.ctx, Eff.apply]

theorem State.ctx_apply_other (s : State) {k c k' c' : Nat} (h : ctxKey k' c' ≠ ctxKey k c) (x : Ctx) :
    ((Eff.ctx k c x).apply s).ctx k' c' = s.ctx k' c' := by
  simp [State.ctx, Eff.apply, sget_sset_other _ h]

@[simp] theorem State.core_apply_same (s : State) (k : Nat) (x : Core) : ((Eff.core k x).apply s).core k = x := by
  simp [State.core, Eff.apply]

theorem State.core_apply_other (s : State) {k j : Nat} (h : j ≠ k) (x : Core) :
    ((Eff.core k x).apply s).core j = s.core j := by
  simp [State.core, Eff.apply, sget_sset_other _ h]

@[simp] theorem State.cluster_apply_same (s : State) (k : Nat) (x : Cluster) :
    ((Eff.cluster k x).apply s).cluster k = x := by
  simp [State.cluster, Eff.apply]

theorem State.cluster_apply_other (s : State) {k j : Nat} (h : j ≠ k) (x : Cluster) :
    ((Eff.cluster k x).apply s).cluster j = s.cluster j := by
  simp [State.cluster, Eff.apply, sget_sset_other _ h]

theorem State.ctx_eq (s t : State) (h : t.ctxs = s.ctxs) (k c : Nat) : t.ctx k c = s.ctx k c := by
  simp [State.ctx, h]

/-- Two writes of one context are the second. -/
@[simp] theorem Eff.ctx_ctx (k c : Nat) (x y : Ctx) (s : State) :
    (Eff.ctx k c y).apply ((Eff.ctx k c x).apply s) = (Eff.ctx k c y).apply s := by
  simp [Eff.apply]

/-! ### Fields under the primitive changes -/

/-! `ctx` -/

@[simp] theorem Eff.ctx_mem (k c : Nat) (x : Ctx) (s : State) : ((Eff.ctx k c x).apply s).mem = s.mem := rfl
@[simp] theorem Eff.ctx_sync (k c : Nat) (x : Ctx) (s : State) : ((Eff.ctx k c x).apply s).sync = s.sync := rfl
@[simp] theorem Eff.ctx_ctxs (k c : Nat) (x : Ctx) (s : State) : ((Eff.ctx k c x).apply s).ctxs = sset (ctxKey k c) x s.ctxs :=
    rfl
@[simp] theorem Eff.ctx_cores (k c : Nat) (x : Ctx) (s : State) : ((Eff.ctx k c x).apply s).cores = s.cores := rfl
@[simp] theorem Eff.ctx_clusters (k c : Nat) (x : Ctx) (s : State) : ((Eff.ctx k c x).apply s).clusters = s.clusters := rfl
@[simp] theorem Eff.ctx_parts (k c : Nat) (x : Ctx) (s : State) : ((Eff.ctx k c x).apply s).parts = s.parts := rfl
@[simp] theorem Eff.ctx_launches (k c : Nat) (x : Ctx) (s : State) : ((Eff.ctx k c x).apply s).launches = s.launches := rfl
@[simp] theorem Eff.ctx_nextLaunch (k c : Nat) (x : Ctx) (s : State) : ((Eff.ctx k c x).apply s).nextLaunch = s.nextLaunch :=
    rfl
@[simp] theorem Eff.ctx_net (k c : Nat) (x : Ctx) (s : State) : ((Eff.ctx k c x).apply s).net = s.net := rfl
@[simp] theorem Eff.ctx_mgmt (k c : Nat) (x : Ctx) (s : State) : ((Eff.ctx k c x).apply s).mgmt = s.mgmt := rfl
@[simp] theorem Eff.ctx_errs (k c : Nat) (x : Ctx) (s : State) : ((Eff.ctx k c x).apply s).errs = s.errs := rfl
@[simp] theorem Eff.ctx_capacity (k c : Nat) (x : Ctx) (s : State) : ((Eff.ctx k c x).apply s).capacity = s.capacity := rfl
@[simp] theorem Eff.ctx_clk (k c : Nat) (x : Ctx) (s : State) : ((Eff.ctx k c x).apply s).clk = s.clk := rfl
@[simp] theorem Eff.ctx_evlog (k c : Nat) (x : Ctx) (s : State) : ((Eff.ctx k c x).apply s).evlog = s.evlog := rfl
@[simp] theorem Eff.ctx_sched (k c : Nat) (x : Ctx) (s : State) : ((Eff.ctx k c x).apply s).sched = s.sched := rfl
@[simp] theorem Eff.ctx_cur (k c : Nat) (x : Ctx) (s : State) : ((Eff.ctx k c x).apply s).cur = s.cur := rfl
@[simp] theorem Eff.ctx_freeCtr (k c : Nat) (x : Ctx) (s : State) : ((Eff.ctx k c x).apply s).freeCtr = s.freeCtr := rfl

/-! `core` -/

@[simp] theorem Eff.core_mem (k : Nat) (x : Core) (s : State) : ((Eff.core k x).apply s).mem = s.mem := rfl
@[simp] theorem Eff.core_sync (k : Nat) (x : Core) (s : State) : ((Eff.core k x).apply s).sync = s.sync := rfl
@[simp] theorem Eff.core_ctxs (k : Nat) (x : Core) (s : State) : ((Eff.core k x).apply s).ctxs = s.ctxs := rfl
@[simp] theorem Eff.core_cores (k : Nat) (x : Core) (s : State) : ((Eff.core k x).apply s).cores = sset k x s.cores := rfl
@[simp] theorem Eff.core_clusters (k : Nat) (x : Core) (s : State) : ((Eff.core k x).apply s).clusters = s.clusters := rfl
@[simp] theorem Eff.core_parts (k : Nat) (x : Core) (s : State) : ((Eff.core k x).apply s).parts = s.parts := rfl
@[simp] theorem Eff.core_launches (k : Nat) (x : Core) (s : State) : ((Eff.core k x).apply s).launches = s.launches := rfl
@[simp] theorem Eff.core_nextLaunch (k : Nat) (x : Core) (s : State) : ((Eff.core k x).apply s).nextLaunch = s.nextLaunch := rfl
@[simp] theorem Eff.core_net (k : Nat) (x : Core) (s : State) : ((Eff.core k x).apply s).net = s.net := rfl
@[simp] theorem Eff.core_mgmt (k : Nat) (x : Core) (s : State) : ((Eff.core k x).apply s).mgmt = s.mgmt := rfl
@[simp] theorem Eff.core_errs (k : Nat) (x : Core) (s : State) : ((Eff.core k x).apply s).errs = s.errs := rfl
@[simp] theorem Eff.core_capacity (k : Nat) (x : Core) (s : State) : ((Eff.core k x).apply s).capacity = s.capacity := rfl
@[simp] theorem Eff.core_clk (k : Nat) (x : Core) (s : State) : ((Eff.core k x).apply s).clk = s.clk := rfl
@[simp] theorem Eff.core_evlog (k : Nat) (x : Core) (s : State) : ((Eff.core k x).apply s).evlog = s.evlog := rfl
@[simp] theorem Eff.core_sched (k : Nat) (x : Core) (s : State) : ((Eff.core k x).apply s).sched = s.sched := rfl
@[simp] theorem Eff.core_cur (k : Nat) (x : Core) (s : State) : ((Eff.core k x).apply s).cur = s.cur := rfl
@[simp] theorem Eff.core_freeCtr (k : Nat) (x : Core) (s : State) : ((Eff.core k x).apply s).freeCtr = s.freeCtr := rfl

/-! `cluster` -/

@[simp] theorem Eff.cluster_mem (k : Nat) (x : Cluster) (s : State) : ((Eff.cluster k x).apply s).mem = s.mem := rfl
@[simp] theorem Eff.cluster_sync (k : Nat) (x : Cluster) (s : State) : ((Eff.cluster k x).apply s).sync = s.sync := rfl
@[simp] theorem Eff.cluster_ctxs (k : Nat) (x : Cluster) (s : State) : ((Eff.cluster k x).apply s).ctxs = s.ctxs := rfl
@[simp] theorem Eff.cluster_cores (k : Nat) (x : Cluster) (s : State) : ((Eff.cluster k x).apply s).cores = s.cores := rfl
@[simp] theorem Eff.cluster_clusters (k : Nat) (x : Cluster) (s : State) : ((Eff.cluster k x).apply s).clusters = sset k x s.clusters :=
    rfl
@[simp] theorem Eff.cluster_parts (k : Nat) (x : Cluster) (s : State) : ((Eff.cluster k x).apply s).parts = s.parts := rfl
@[simp] theorem Eff.cluster_launches (k : Nat) (x : Cluster) (s : State) : ((Eff.cluster k x).apply s).launches = s.launches :=
    rfl
@[simp] theorem Eff.cluster_nextLaunch (k : Nat) (x : Cluster) (s : State) : ((Eff.cluster k x).apply s).nextLaunch = s.nextLaunch :=
    rfl
@[simp] theorem Eff.cluster_net (k : Nat) (x : Cluster) (s : State) : ((Eff.cluster k x).apply s).net = s.net := rfl
@[simp] theorem Eff.cluster_mgmt (k : Nat) (x : Cluster) (s : State) : ((Eff.cluster k x).apply s).mgmt = s.mgmt := rfl
@[simp] theorem Eff.cluster_errs (k : Nat) (x : Cluster) (s : State) : ((Eff.cluster k x).apply s).errs = s.errs := rfl
@[simp] theorem Eff.cluster_capacity (k : Nat) (x : Cluster) (s : State) : ((Eff.cluster k x).apply s).capacity = s.capacity :=
    rfl
@[simp] theorem Eff.cluster_clk (k : Nat) (x : Cluster) (s : State) : ((Eff.cluster k x).apply s).clk = s.clk := rfl
@[simp] theorem Eff.cluster_evlog (k : Nat) (x : Cluster) (s : State) : ((Eff.cluster k x).apply s).evlog = s.evlog := rfl
@[simp] theorem Eff.cluster_sched (k : Nat) (x : Cluster) (s : State) : ((Eff.cluster k x).apply s).sched = s.sched := rfl
@[simp] theorem Eff.cluster_cur (k : Nat) (x : Cluster) (s : State) : ((Eff.cluster k x).apply s).cur = s.cur := rfl
@[simp] theorem Eff.cluster_freeCtr (k : Nat) (x : Cluster) (s : State) : ((Eff.cluster k x).apply s).freeCtr = s.freeCtr := rfl

/-! `part` -/

@[simp] theorem Eff.part_mem (p : Nat) (x : Partition) (s : State) : ((Eff.part p x).apply s).mem = s.mem := rfl
@[simp] theorem Eff.part_sync (p : Nat) (x : Partition) (s : State) : ((Eff.part p x).apply s).sync = s.sync := rfl
@[simp] theorem Eff.part_ctxs (p : Nat) (x : Partition) (s : State) : ((Eff.part p x).apply s).ctxs = s.ctxs := rfl
@[simp] theorem Eff.part_cores (p : Nat) (x : Partition) (s : State) : ((Eff.part p x).apply s).cores = s.cores := rfl
@[simp] theorem Eff.part_clusters (p : Nat) (x : Partition) (s : State) : ((Eff.part p x).apply s).clusters = s.clusters := rfl
@[simp] theorem Eff.part_parts (p : Nat) (x : Partition) (s : State) : ((Eff.part p x).apply s).parts = sset p x s.parts := rfl
@[simp] theorem Eff.part_launches (p : Nat) (x : Partition) (s : State) : ((Eff.part p x).apply s).launches = s.launches := rfl
@[simp] theorem Eff.part_nextLaunch (p : Nat) (x : Partition) (s : State) : ((Eff.part p x).apply s).nextLaunch = s.nextLaunch :=
    rfl
@[simp] theorem Eff.part_net (p : Nat) (x : Partition) (s : State) : ((Eff.part p x).apply s).net = s.net := rfl
@[simp] theorem Eff.part_mgmt (p : Nat) (x : Partition) (s : State) : ((Eff.part p x).apply s).mgmt = s.mgmt := rfl
@[simp] theorem Eff.part_errs (p : Nat) (x : Partition) (s : State) : ((Eff.part p x).apply s).errs = s.errs := rfl
@[simp] theorem Eff.part_capacity (p : Nat) (x : Partition) (s : State) : ((Eff.part p x).apply s).capacity = s.capacity := rfl
@[simp] theorem Eff.part_clk (p : Nat) (x : Partition) (s : State) : ((Eff.part p x).apply s).clk = s.clk := rfl
@[simp] theorem Eff.part_evlog (p : Nat) (x : Partition) (s : State) : ((Eff.part p x).apply s).evlog = s.evlog := rfl
@[simp] theorem Eff.part_sched (p : Nat) (x : Partition) (s : State) : ((Eff.part p x).apply s).sched = s.sched := rfl
@[simp] theorem Eff.part_cur (p : Nat) (x : Partition) (s : State) : ((Eff.part p x).apply s).cur = s.cur := rfl
@[simp] theorem Eff.part_freeCtr (p : Nat) (x : Partition) (s : State) : ((Eff.part p x).apply s).freeCtr = s.freeCtr := rfl

/-! `dropPart` -/

@[simp] theorem Eff.dropPart_mem (p : Nat) (s : State) : ((Eff.dropPart p).apply s).mem = s.mem := rfl
@[simp] theorem Eff.dropPart_sync (p : Nat) (s : State) : ((Eff.dropPart p).apply s).sync = s.sync := rfl
@[simp] theorem Eff.dropPart_ctxs (p : Nat) (s : State) : ((Eff.dropPart p).apply s).ctxs = s.ctxs := rfl
@[simp] theorem Eff.dropPart_cores (p : Nat) (s : State) : ((Eff.dropPart p).apply s).cores = s.cores := rfl
@[simp] theorem Eff.dropPart_clusters (p : Nat) (s : State) : ((Eff.dropPart p).apply s).clusters = s.clusters := rfl
@[simp] theorem Eff.dropPart_parts (p : Nat) (s : State) : ((Eff.dropPart p).apply s).parts = s.parts.filter (·.1 != p) := rfl
@[simp] theorem Eff.dropPart_launches (p : Nat) (s : State) : ((Eff.dropPart p).apply s).launches = s.launches := rfl
@[simp] theorem Eff.dropPart_nextLaunch (p : Nat) (s : State) : ((Eff.dropPart p).apply s).nextLaunch = s.nextLaunch := rfl
@[simp] theorem Eff.dropPart_net (p : Nat) (s : State) : ((Eff.dropPart p).apply s).net = s.net := rfl
@[simp] theorem Eff.dropPart_mgmt (p : Nat) (s : State) : ((Eff.dropPart p).apply s).mgmt = s.mgmt := rfl
@[simp] theorem Eff.dropPart_errs (p : Nat) (s : State) : ((Eff.dropPart p).apply s).errs = s.errs := rfl
@[simp] theorem Eff.dropPart_capacity (p : Nat) (s : State) : ((Eff.dropPart p).apply s).capacity = s.capacity := rfl
@[simp] theorem Eff.dropPart_clk (p : Nat) (s : State) : ((Eff.dropPart p).apply s).clk = s.clk := rfl
@[simp] theorem Eff.dropPart_evlog (p : Nat) (s : State) : ((Eff.dropPart p).apply s).evlog = s.evlog := rfl
@[simp] theorem Eff.dropPart_sched (p : Nat) (s : State) : ((Eff.dropPart p).apply s).sched = s.sched := rfl
@[simp] theorem Eff.dropPart_cur (p : Nat) (s : State) : ((Eff.dropPart p).apply s).cur = s.cur := rfl
@[simp] theorem Eff.dropPart_freeCtr (p : Nat) (s : State) : ((Eff.dropPart p).apply s).freeCtr = s.freeCtr := rfl

/-! `launch` -/

@[simp] theorem Eff.launch_mem (n : Nat) (x : Launch) (s : State) : ((Eff.launch n x).apply s).mem = s.mem := rfl
@[simp] theorem Eff.launch_sync (n : Nat) (x : Launch) (s : State) : ((Eff.launch n x).apply s).sync = s.sync := rfl
@[simp] theorem Eff.launch_ctxs (n : Nat) (x : Launch) (s : State) : ((Eff.launch n x).apply s).ctxs = s.ctxs := rfl
@[simp] theorem Eff.launch_cores (n : Nat) (x : Launch) (s : State) : ((Eff.launch n x).apply s).cores = s.cores := rfl
@[simp] theorem Eff.launch_clusters (n : Nat) (x : Launch) (s : State) : ((Eff.launch n x).apply s).clusters = s.clusters := rfl
@[simp] theorem Eff.launch_parts (n : Nat) (x : Launch) (s : State) : ((Eff.launch n x).apply s).parts = s.parts := rfl
@[simp] theorem Eff.launch_launches (n : Nat) (x : Launch) (s : State) : ((Eff.launch n x).apply s).launches = sset n x s.launches :=
    rfl
@[simp] theorem Eff.launch_nextLaunch (n : Nat) (x : Launch) (s : State) : ((Eff.launch n x).apply s).nextLaunch = s.nextLaunch :=
    rfl
@[simp] theorem Eff.launch_net (n : Nat) (x : Launch) (s : State) : ((Eff.launch n x).apply s).net = s.net := rfl
@[simp] theorem Eff.launch_mgmt (n : Nat) (x : Launch) (s : State) : ((Eff.launch n x).apply s).mgmt = s.mgmt := rfl
@[simp] theorem Eff.launch_errs (n : Nat) (x : Launch) (s : State) : ((Eff.launch n x).apply s).errs = s.errs := rfl
@[simp] theorem Eff.launch_capacity (n : Nat) (x : Launch) (s : State) : ((Eff.launch n x).apply s).capacity = s.capacity := rfl
@[simp] theorem Eff.launch_clk (n : Nat) (x : Launch) (s : State) : ((Eff.launch n x).apply s).clk = s.clk := rfl
@[simp] theorem Eff.launch_evlog (n : Nat) (x : Launch) (s : State) : ((Eff.launch n x).apply s).evlog = s.evlog := rfl
@[simp] theorem Eff.launch_sched (n : Nat) (x : Launch) (s : State) : ((Eff.launch n x).apply s).sched = s.sched := rfl
@[simp] theorem Eff.launch_cur (n : Nat) (x : Launch) (s : State) : ((Eff.launch n x).apply s).cur = s.cur := rfl
@[simp] theorem Eff.launch_freeCtr (n : Nat) (x : Launch) (s : State) : ((Eff.launch n x).apply s).freeCtr = s.freeCtr := rfl

/-! `newLaunch` -/

@[simp] theorem Eff.newLaunch_mem (x : Launch) (s : State) : ((Eff.newLaunch x).apply s).mem = s.mem := rfl
@[simp] theorem Eff.newLaunch_sync (x : Launch) (s : State) : ((Eff.newLaunch x).apply s).sync = s.sync := rfl
@[simp] theorem Eff.newLaunch_ctxs (x : Launch) (s : State) : ((Eff.newLaunch x).apply s).ctxs = s.ctxs := rfl
@[simp] theorem Eff.newLaunch_cores (x : Launch) (s : State) : ((Eff.newLaunch x).apply s).cores = s.cores := rfl
@[simp] theorem Eff.newLaunch_clusters (x : Launch) (s : State) : ((Eff.newLaunch x).apply s).clusters = s.clusters := rfl
@[simp] theorem Eff.newLaunch_parts (x : Launch) (s : State) : ((Eff.newLaunch x).apply s).parts = s.parts := rfl
@[simp] theorem Eff.newLaunch_launches (x : Launch) (s : State) : ((Eff.newLaunch x).apply s).launches = sset s.nextLaunch x s.launches :=
    rfl
@[simp] theorem Eff.newLaunch_nextLaunch (x : Launch) (s : State) : ((Eff.newLaunch x).apply s).nextLaunch = s.nextLaunch + 1 :=
    rfl
@[simp] theorem Eff.newLaunch_net (x : Launch) (s : State) : ((Eff.newLaunch x).apply s).net = s.net := rfl
@[simp] theorem Eff.newLaunch_mgmt (x : Launch) (s : State) : ((Eff.newLaunch x).apply s).mgmt = s.mgmt := rfl
@[simp] theorem Eff.newLaunch_errs (x : Launch) (s : State) : ((Eff.newLaunch x).apply s).errs = s.errs := rfl
@[simp] theorem Eff.newLaunch_capacity (x : Launch) (s : State) : ((Eff.newLaunch x).apply s).capacity = s.capacity := rfl
@[simp] theorem Eff.newLaunch_clk (x : Launch) (s : State) : ((Eff.newLaunch x).apply s).clk = s.clk := rfl
@[simp] theorem Eff.newLaunch_evlog (x : Launch) (s : State) : ((Eff.newLaunch x).apply s).evlog = s.evlog := rfl
@[simp] theorem Eff.newLaunch_sched (x : Launch) (s : State) : ((Eff.newLaunch x).apply s).sched = s.sched := rfl
@[simp] theorem Eff.newLaunch_cur (x : Launch) (s : State) : ((Eff.newLaunch x).apply s).cur = s.cur := rfl
@[simp] theorem Eff.newLaunch_freeCtr (x : Launch) (s : State) : ((Eff.newLaunch x).apply s).freeCtr = s.freeCtr := rfl

/-! `net` -/

@[simp] theorem Eff.net_mem (x : Net) (s : State) : ((Eff.net x).apply s).mem = s.mem := rfl
@[simp] theorem Eff.net_sync (x : Net) (s : State) : ((Eff.net x).apply s).sync = s.sync := rfl
@[simp] theorem Eff.net_ctxs (x : Net) (s : State) : ((Eff.net x).apply s).ctxs = s.ctxs := rfl
@[simp] theorem Eff.net_cores (x : Net) (s : State) : ((Eff.net x).apply s).cores = s.cores := rfl
@[simp] theorem Eff.net_clusters (x : Net) (s : State) : ((Eff.net x).apply s).clusters = s.clusters := rfl
@[simp] theorem Eff.net_parts (x : Net) (s : State) : ((Eff.net x).apply s).parts = s.parts := rfl
@[simp] theorem Eff.net_launches (x : Net) (s : State) : ((Eff.net x).apply s).launches = s.launches := rfl
@[simp] theorem Eff.net_nextLaunch (x : Net) (s : State) : ((Eff.net x).apply s).nextLaunch = s.nextLaunch := rfl
@[simp] theorem Eff.net_net (x : Net) (s : State) : ((Eff.net x).apply s).net = x := rfl
@[simp] theorem Eff.net_mgmt (x : Net) (s : State) : ((Eff.net x).apply s).mgmt = s.mgmt := rfl
@[simp] theorem Eff.net_errs (x : Net) (s : State) : ((Eff.net x).apply s).errs = s.errs := rfl
@[simp] theorem Eff.net_capacity (x : Net) (s : State) : ((Eff.net x).apply s).capacity = s.capacity := rfl
@[simp] theorem Eff.net_clk (x : Net) (s : State) : ((Eff.net x).apply s).clk = s.clk := rfl
@[simp] theorem Eff.net_evlog (x : Net) (s : State) : ((Eff.net x).apply s).evlog = s.evlog := rfl
@[simp] theorem Eff.net_sched (x : Net) (s : State) : ((Eff.net x).apply s).sched = s.sched := rfl
@[simp] theorem Eff.net_cur (x : Net) (s : State) : ((Eff.net x).apply s).cur = s.cur := rfl
@[simp] theorem Eff.net_freeCtr (x : Net) (s : State) : ((Eff.net x).apply s).freeCtr = s.freeCtr := rfl

/-! `mgmt` -/

@[simp] theorem Eff.mgmt_mem (x : Mgmt) (s : State) : ((Eff.mgmt x).apply s).mem = s.mem := rfl
@[simp] theorem Eff.mgmt_sync (x : Mgmt) (s : State) : ((Eff.mgmt x).apply s).sync = s.sync := rfl
@[simp] theorem Eff.mgmt_ctxs (x : Mgmt) (s : State) : ((Eff.mgmt x).apply s).ctxs = s.ctxs := rfl
@[simp] theorem Eff.mgmt_cores (x : Mgmt) (s : State) : ((Eff.mgmt x).apply s).cores = s.cores := rfl
@[simp] theorem Eff.mgmt_clusters (x : Mgmt) (s : State) : ((Eff.mgmt x).apply s).clusters = s.clusters := rfl
@[simp] theorem Eff.mgmt_parts (x : Mgmt) (s : State) : ((Eff.mgmt x).apply s).parts = s.parts := rfl
@[simp] theorem Eff.mgmt_launches (x : Mgmt) (s : State) : ((Eff.mgmt x).apply s).launches = s.launches := rfl
@[simp] theorem Eff.mgmt_nextLaunch (x : Mgmt) (s : State) : ((Eff.mgmt x).apply s).nextLaunch = s.nextLaunch := rfl
@[simp] theorem Eff.mgmt_net (x : Mgmt) (s : State) : ((Eff.mgmt x).apply s).net = s.net := rfl
@[simp] theorem Eff.mgmt_mgmt (x : Mgmt) (s : State) : ((Eff.mgmt x).apply s).mgmt = x := rfl
@[simp] theorem Eff.mgmt_errs (x : Mgmt) (s : State) : ((Eff.mgmt x).apply s).errs = s.errs := rfl
@[simp] theorem Eff.mgmt_capacity (x : Mgmt) (s : State) : ((Eff.mgmt x).apply s).capacity = s.capacity := rfl
@[simp] theorem Eff.mgmt_clk (x : Mgmt) (s : State) : ((Eff.mgmt x).apply s).clk = s.clk := rfl
@[simp] theorem Eff.mgmt_evlog (x : Mgmt) (s : State) : ((Eff.mgmt x).apply s).evlog = s.evlog := rfl
@[simp] theorem Eff.mgmt_sched (x : Mgmt) (s : State) : ((Eff.mgmt x).apply s).sched = s.sched := rfl
@[simp] theorem Eff.mgmt_cur (x : Mgmt) (s : State) : ((Eff.mgmt x).apply s).cur = s.cur := rfl
@[simp] theorem Eff.mgmt_freeCtr (x : Mgmt) (s : State) : ((Eff.mgmt x).apply s).freeCtr = s.freeCtr := rfl

/-! `errs` -/

@[simp] theorem Eff.errs_mem (x : SoftErrors) (s : State) : ((Eff.errs x).apply s).mem = s.mem := rfl
@[simp] theorem Eff.errs_sync (x : SoftErrors) (s : State) : ((Eff.errs x).apply s).sync = s.sync := rfl
@[simp] theorem Eff.errs_ctxs (x : SoftErrors) (s : State) : ((Eff.errs x).apply s).ctxs = s.ctxs := rfl
@[simp] theorem Eff.errs_cores (x : SoftErrors) (s : State) : ((Eff.errs x).apply s).cores = s.cores := rfl
@[simp] theorem Eff.errs_clusters (x : SoftErrors) (s : State) : ((Eff.errs x).apply s).clusters = s.clusters := rfl
@[simp] theorem Eff.errs_parts (x : SoftErrors) (s : State) : ((Eff.errs x).apply s).parts = s.parts := rfl
@[simp] theorem Eff.errs_launches (x : SoftErrors) (s : State) : ((Eff.errs x).apply s).launches = s.launches := rfl
@[simp] theorem Eff.errs_nextLaunch (x : SoftErrors) (s : State) : ((Eff.errs x).apply s).nextLaunch = s.nextLaunch := rfl
@[simp] theorem Eff.errs_net (x : SoftErrors) (s : State) : ((Eff.errs x).apply s).net = s.net := rfl
@[simp] theorem Eff.errs_mgmt (x : SoftErrors) (s : State) : ((Eff.errs x).apply s).mgmt = s.mgmt := rfl
@[simp] theorem Eff.errs_errs (x : SoftErrors) (s : State) : ((Eff.errs x).apply s).errs = x := rfl
@[simp] theorem Eff.errs_capacity (x : SoftErrors) (s : State) : ((Eff.errs x).apply s).capacity = s.capacity := rfl
@[simp] theorem Eff.errs_clk (x : SoftErrors) (s : State) : ((Eff.errs x).apply s).clk = s.clk := rfl
@[simp] theorem Eff.errs_evlog (x : SoftErrors) (s : State) : ((Eff.errs x).apply s).evlog = s.evlog := rfl
@[simp] theorem Eff.errs_sched (x : SoftErrors) (s : State) : ((Eff.errs x).apply s).sched = s.sched := rfl
@[simp] theorem Eff.errs_cur (x : SoftErrors) (s : State) : ((Eff.errs x).apply s).cur = s.cur := rfl
@[simp] theorem Eff.errs_freeCtr (x : SoftErrors) (s : State) : ((Eff.errs x).apply s).freeCtr = s.freeCtr := rfl

/-! `poke` -/

@[simp] theorem Eff.poke_mem (k : Nat) (b : Byte) (s : State) : ((Eff.poke k b).apply s).mem = Mem.put k b s.mem := rfl
@[simp] theorem Eff.poke_sync (k : Nat) (b : Byte) (s : State) : ((Eff.poke k b).apply s).sync = s.sync := rfl
@[simp] theorem Eff.poke_ctxs (k : Nat) (b : Byte) (s : State) : ((Eff.poke k b).apply s).ctxs = s.ctxs := rfl
@[simp] theorem Eff.poke_cores (k : Nat) (b : Byte) (s : State) : ((Eff.poke k b).apply s).cores = s.cores := rfl
@[simp] theorem Eff.poke_clusters (k : Nat) (b : Byte) (s : State) : ((Eff.poke k b).apply s).clusters = s.clusters := rfl
@[simp] theorem Eff.poke_parts (k : Nat) (b : Byte) (s : State) : ((Eff.poke k b).apply s).parts = s.parts := rfl
@[simp] theorem Eff.poke_launches (k : Nat) (b : Byte) (s : State) : ((Eff.poke k b).apply s).launches = s.launches := rfl
@[simp] theorem Eff.poke_nextLaunch (k : Nat) (b : Byte) (s : State) : ((Eff.poke k b).apply s).nextLaunch = s.nextLaunch := rfl
@[simp] theorem Eff.poke_net (k : Nat) (b : Byte) (s : State) : ((Eff.poke k b).apply s).net = s.net := rfl
@[simp] theorem Eff.poke_mgmt (k : Nat) (b : Byte) (s : State) : ((Eff.poke k b).apply s).mgmt = s.mgmt := rfl
@[simp] theorem Eff.poke_errs (k : Nat) (b : Byte) (s : State) : ((Eff.poke k b).apply s).errs = s.errs := rfl
@[simp] theorem Eff.poke_capacity (k : Nat) (b : Byte) (s : State) : ((Eff.poke k b).apply s).capacity = s.capacity := rfl
@[simp] theorem Eff.poke_clk (k : Nat) (b : Byte) (s : State) : ((Eff.poke k b).apply s).clk = s.clk := rfl
@[simp] theorem Eff.poke_evlog (k : Nat) (b : Byte) (s : State) : ((Eff.poke k b).apply s).evlog = s.evlog := rfl
@[simp] theorem Eff.poke_sched (k : Nat) (b : Byte) (s : State) : ((Eff.poke k b).apply s).sched = s.sched := rfl
@[simp] theorem Eff.poke_cur (k : Nat) (b : Byte) (s : State) : ((Eff.poke k b).apply s).cur = s.cur := rfl
@[simp] theorem Eff.poke_freeCtr (k : Nat) (b : Byte) (s : State) : ((Eff.poke k b).apply s).freeCtr = s.freeCtr := rfl

/-! `wipe` -/

@[simp] theorem Eff.wipe_mem (lo hi : Nat) (s : State) : ((Eff.wipe lo hi).apply s).mem = Mem.wipe lo hi s.mem := rfl
@[simp] theorem Eff.wipe_sync (lo hi : Nat) (s : State) : ((Eff.wipe lo hi).apply s).sync = s.sync := rfl
@[simp] theorem Eff.wipe_ctxs (lo hi : Nat) (s : State) : ((Eff.wipe lo hi).apply s).ctxs = s.ctxs := rfl
@[simp] theorem Eff.wipe_cores (lo hi : Nat) (s : State) : ((Eff.wipe lo hi).apply s).cores = s.cores := rfl
@[simp] theorem Eff.wipe_clusters (lo hi : Nat) (s : State) : ((Eff.wipe lo hi).apply s).clusters = s.clusters := rfl
@[simp] theorem Eff.wipe_parts (lo hi : Nat) (s : State) : ((Eff.wipe lo hi).apply s).parts = s.parts := rfl
@[simp] theorem Eff.wipe_launches (lo hi : Nat) (s : State) : ((Eff.wipe lo hi).apply s).launches = s.launches := rfl
@[simp] theorem Eff.wipe_nextLaunch (lo hi : Nat) (s : State) : ((Eff.wipe lo hi).apply s).nextLaunch = s.nextLaunch := rfl
@[simp] theorem Eff.wipe_net (lo hi : Nat) (s : State) : ((Eff.wipe lo hi).apply s).net = s.net := rfl
@[simp] theorem Eff.wipe_mgmt (lo hi : Nat) (s : State) : ((Eff.wipe lo hi).apply s).mgmt = s.mgmt := rfl
@[simp] theorem Eff.wipe_errs (lo hi : Nat) (s : State) : ((Eff.wipe lo hi).apply s).errs = s.errs := rfl
@[simp] theorem Eff.wipe_capacity (lo hi : Nat) (s : State) : ((Eff.wipe lo hi).apply s).capacity = s.capacity := rfl
@[simp] theorem Eff.wipe_clk (lo hi : Nat) (s : State) : ((Eff.wipe lo hi).apply s).clk = s.clk := rfl
@[simp] theorem Eff.wipe_evlog (lo hi : Nat) (s : State) : ((Eff.wipe lo hi).apply s).evlog = s.evlog := rfl
@[simp] theorem Eff.wipe_sched (lo hi : Nat) (s : State) : ((Eff.wipe lo hi).apply s).sched = s.sched := rfl
@[simp] theorem Eff.wipe_cur (lo hi : Nat) (s : State) : ((Eff.wipe lo hi).apply s).cur = s.cur := rfl
@[simp] theorem Eff.wipe_freeCtr (lo hi : Nat) (s : State) : ((Eff.wipe lo hi).apply s).freeCtr = s.freeCtr := rfl

/-! `sync` -/

@[simp] theorem Eff.sync_mem (w : Nat) (v : BitVec 2) (s : State) : ((Eff.sync w v).apply s).mem = s.mem := rfl
@[simp] theorem Eff.sync_sync (w : Nat) (v : BitVec 2) (s : State) : ((Eff.sync w v).apply s).sync = setSync w v s.sync := rfl
@[simp] theorem Eff.sync_ctxs (w : Nat) (v : BitVec 2) (s : State) : ((Eff.sync w v).apply s).ctxs = s.ctxs := rfl
@[simp] theorem Eff.sync_cores (w : Nat) (v : BitVec 2) (s : State) : ((Eff.sync w v).apply s).cores = s.cores := rfl
@[simp] theorem Eff.sync_clusters (w : Nat) (v : BitVec 2) (s : State) : ((Eff.sync w v).apply s).clusters = s.clusters := rfl
@[simp] theorem Eff.sync_parts (w : Nat) (v : BitVec 2) (s : State) : ((Eff.sync w v).apply s).parts = s.parts := rfl
@[simp] theorem Eff.sync_launches (w : Nat) (v : BitVec 2) (s : State) : ((Eff.sync w v).apply s).launches = s.launches := rfl
@[simp] theorem Eff.sync_nextLaunch (w : Nat) (v : BitVec 2) (s : State) : ((Eff.sync w v).apply s).nextLaunch = s.nextLaunch :=
    rfl
@[simp] theorem Eff.sync_net (w : Nat) (v : BitVec 2) (s : State) : ((Eff.sync w v).apply s).net = s.net := rfl
@[simp] theorem Eff.sync_mgmt (w : Nat) (v : BitVec 2) (s : State) : ((Eff.sync w v).apply s).mgmt = s.mgmt := rfl
@[simp] theorem Eff.sync_errs (w : Nat) (v : BitVec 2) (s : State) : ((Eff.sync w v).apply s).errs = s.errs := rfl
@[simp] theorem Eff.sync_capacity (w : Nat) (v : BitVec 2) (s : State) : ((Eff.sync w v).apply s).capacity = s.capacity := rfl
@[simp] theorem Eff.sync_clk (w : Nat) (v : BitVec 2) (s : State) : ((Eff.sync w v).apply s).clk = s.clk := rfl
@[simp] theorem Eff.sync_evlog (w : Nat) (v : BitVec 2) (s : State) : ((Eff.sync w v).apply s).evlog = s.evlog := rfl
@[simp] theorem Eff.sync_sched (w : Nat) (v : BitVec 2) (s : State) : ((Eff.sync w v).apply s).sched = s.sched := rfl
@[simp] theorem Eff.sync_cur (w : Nat) (v : BitVec 2) (s : State) : ((Eff.sync w v).apply s).cur = s.cur := rfl
@[simp] theorem Eff.sync_freeCtr (w : Nat) (v : BitVec 2) (s : State) : ((Eff.sync w v).apply s).freeCtr = s.freeCtr := rfl

/-! `wipeSync` -/

@[simp] theorem Eff.wipeSync_mem (lo hi : Nat) (s : State) : ((Eff.wipeSync lo hi).apply s).mem = s.mem := rfl
@[simp] theorem Eff.wipeSync_sync (lo hi : Nat) (s : State) : ((Eff.wipeSync lo hi).apply s).sync =
    s.sync.filter fun e => !(lo ≤ e.1 && e.1 < hi) :=
    rfl
@[simp] theorem Eff.wipeSync_ctxs (lo hi : Nat) (s : State) : ((Eff.wipeSync lo hi).apply s).ctxs = s.ctxs := rfl
@[simp] theorem Eff.wipeSync_cores (lo hi : Nat) (s : State) : ((Eff.wipeSync lo hi).apply s).cores = s.cores := rfl
@[simp] theorem Eff.wipeSync_clusters (lo hi : Nat) (s : State) : ((Eff.wipeSync lo hi).apply s).clusters = s.clusters := rfl
@[simp] theorem Eff.wipeSync_parts (lo hi : Nat) (s : State) : ((Eff.wipeSync lo hi).apply s).parts = s.parts := rfl
@[simp] theorem Eff.wipeSync_launches (lo hi : Nat) (s : State) : ((Eff.wipeSync lo hi).apply s).launches = s.launches := rfl
@[simp] theorem Eff.wipeSync_nextLaunch (lo hi : Nat) (s : State) : ((Eff.wipeSync lo hi).apply s).nextLaunch = s.nextLaunch :=
    rfl
@[simp] theorem Eff.wipeSync_net (lo hi : Nat) (s : State) : ((Eff.wipeSync lo hi).apply s).net = s.net := rfl
@[simp] theorem Eff.wipeSync_mgmt (lo hi : Nat) (s : State) : ((Eff.wipeSync lo hi).apply s).mgmt = s.mgmt := rfl
@[simp] theorem Eff.wipeSync_errs (lo hi : Nat) (s : State) : ((Eff.wipeSync lo hi).apply s).errs = s.errs := rfl
@[simp] theorem Eff.wipeSync_capacity (lo hi : Nat) (s : State) : ((Eff.wipeSync lo hi).apply s).capacity = s.capacity := rfl
@[simp] theorem Eff.wipeSync_clk (lo hi : Nat) (s : State) : ((Eff.wipeSync lo hi).apply s).clk = s.clk := rfl
@[simp] theorem Eff.wipeSync_evlog (lo hi : Nat) (s : State) : ((Eff.wipeSync lo hi).apply s).evlog = s.evlog := rfl
@[simp] theorem Eff.wipeSync_sched (lo hi : Nat) (s : State) : ((Eff.wipeSync lo hi).apply s).sched = s.sched := rfl
@[simp] theorem Eff.wipeSync_cur (lo hi : Nat) (s : State) : ((Eff.wipeSync lo hi).apply s).cur = s.cur := rfl
@[simp] theorem Eff.wipeSync_freeCtr (lo hi : Nat) (s : State) : ((Eff.wipeSync lo hi).apply s).freeCtr = s.freeCtr := rfl

/-! `tick` -/

@[simp] theorem Eff.tick_mem (s : State) : (Eff.tick.apply s).mem = s.mem := rfl
@[simp] theorem Eff.tick_sync (s : State) : (Eff.tick.apply s).sync = s.sync := rfl
@[simp] theorem Eff.tick_ctxs (s : State) : (Eff.tick.apply s).ctxs = s.ctxs := rfl
@[simp] theorem Eff.tick_cores (s : State) : (Eff.tick.apply s).cores = s.cores := rfl
@[simp] theorem Eff.tick_clusters (s : State) : (Eff.tick.apply s).clusters = s.clusters := rfl
@[simp] theorem Eff.tick_parts (s : State) : (Eff.tick.apply s).parts = s.parts := rfl
@[simp] theorem Eff.tick_launches (s : State) : (Eff.tick.apply s).launches = s.launches := rfl
@[simp] theorem Eff.tick_nextLaunch (s : State) : (Eff.tick.apply s).nextLaunch = s.nextLaunch := rfl
@[simp] theorem Eff.tick_net (s : State) : (Eff.tick.apply s).net = s.net := rfl
@[simp] theorem Eff.tick_mgmt (s : State) : (Eff.tick.apply s).mgmt = s.mgmt := rfl
@[simp] theorem Eff.tick_errs (s : State) : (Eff.tick.apply s).errs = s.errs := rfl
@[simp] theorem Eff.tick_capacity (s : State) : (Eff.tick.apply s).capacity = s.capacity := rfl
@[simp] theorem Eff.tick_clk (s : State) : (Eff.tick.apply s).clk = s.clk + 1 := rfl
@[simp] theorem Eff.tick_evlog (s : State) : (Eff.tick.apply s).evlog = s.evlog := rfl
@[simp] theorem Eff.tick_sched (s : State) : (Eff.tick.apply s).sched = s.sched := rfl
@[simp] theorem Eff.tick_cur (s : State) : (Eff.tick.apply s).cur = s.cur := rfl
@[simp] theorem Eff.tick_freeCtr (s : State) : (Eff.tick.apply s).freeCtr = s.freeCtr := rfl

/-! `log` -/

@[simp] theorem Eff.log_mem (a : Bool) (u r c n : Nat) (s : State) : ((Eff.log a u r c n).apply s).mem = s.mem := rfl
@[simp] theorem Eff.log_sync (a : Bool) (u r c n : Nat) (s : State) : ((Eff.log a u r c n).apply s).sync = s.sync := rfl
@[simp] theorem Eff.log_ctxs (a : Bool) (u r c n : Nat) (s : State) : ((Eff.log a u r c n).apply s).ctxs = s.ctxs := rfl
@[simp] theorem Eff.log_cores (a : Bool) (u r c n : Nat) (s : State) : ((Eff.log a u r c n).apply s).cores = s.cores := rfl
@[simp] theorem Eff.log_clusters (a : Bool) (u r c n : Nat) (s : State) : ((Eff.log a u r c n).apply s).clusters = s.clusters :=
    rfl
@[simp] theorem Eff.log_parts (a : Bool) (u r c n : Nat) (s : State) : ((Eff.log a u r c n).apply s).parts = s.parts := rfl
@[simp] theorem Eff.log_launches (a : Bool) (u r c n : Nat) (s : State) : ((Eff.log a u r c n).apply s).launches = s.launches :=
    rfl
@[simp] theorem Eff.log_nextLaunch (a : Bool) (u r c n : Nat) (s : State) : ((Eff.log a u r c n).apply s).nextLaunch = s.nextLaunch :=
    rfl
@[simp] theorem Eff.log_net (a : Bool) (u r c n : Nat) (s : State) : ((Eff.log a u r c n).apply s).net = s.net := rfl
@[simp] theorem Eff.log_mgmt (a : Bool) (u r c n : Nat) (s : State) : ((Eff.log a u r c n).apply s).mgmt = s.mgmt := rfl
@[simp] theorem Eff.log_errs (a : Bool) (u r c n : Nat) (s : State) : ((Eff.log a u r c n).apply s).errs = s.errs := rfl
@[simp] theorem Eff.log_capacity (a : Bool) (u r c n : Nat) (s : State) : ((Eff.log a u r c n).apply s).capacity = s.capacity :=
    rfl
@[simp] theorem Eff.log_clk (a : Bool) (u r c n : Nat) (s : State) : ((Eff.log a u r c n).apply s).clk = s.clk := rfl
@[simp] theorem Eff.log_evlog (a : Bool) (u r c n : Nat) (s : State) : ((Eff.log a u r c n).apply s).evlog = s.evlog ++ [(a, u, r, c, n)] :=
    rfl
@[simp] theorem Eff.log_sched (a : Bool) (u r c n : Nat) (s : State) : ((Eff.log a u r c n).apply s).sched = s.sched := rfl
@[simp] theorem Eff.log_cur (a : Bool) (u r c n : Nat) (s : State) : ((Eff.log a u r c n).apply s).cur = s.cur := rfl
@[simp] theorem Eff.log_freeCtr (a : Bool) (u r c n : Nat) (s : State) : ((Eff.log a u r c n).apply s).freeCtr = s.freeCtr :=
    rfl

/-! `clearLog` -/

@[simp] theorem Eff.clearLog_mem (s : State) : (Eff.clearLog.apply s).mem = s.mem := rfl
@[simp] theorem Eff.clearLog_sync (s : State) : (Eff.clearLog.apply s).sync = s.sync := rfl
@[simp] theorem Eff.clearLog_ctxs (s : State) : (Eff.clearLog.apply s).ctxs = s.ctxs := rfl
@[simp] theorem Eff.clearLog_cores (s : State) : (Eff.clearLog.apply s).cores = s.cores := rfl
@[simp] theorem Eff.clearLog_clusters (s : State) : (Eff.clearLog.apply s).clusters = s.clusters := rfl
@[simp] theorem Eff.clearLog_parts (s : State) : (Eff.clearLog.apply s).parts = s.parts := rfl
@[simp] theorem Eff.clearLog_launches (s : State) : (Eff.clearLog.apply s).launches = s.launches := rfl
@[simp] theorem Eff.clearLog_nextLaunch (s : State) : (Eff.clearLog.apply s).nextLaunch = s.nextLaunch := rfl
@[simp] theorem Eff.clearLog_net (s : State) : (Eff.clearLog.apply s).net = s.net := rfl
@[simp] theorem Eff.clearLog_mgmt (s : State) : (Eff.clearLog.apply s).mgmt = s.mgmt := rfl
@[simp] theorem Eff.clearLog_errs (s : State) : (Eff.clearLog.apply s).errs = s.errs := rfl
@[simp] theorem Eff.clearLog_capacity (s : State) : (Eff.clearLog.apply s).capacity = s.capacity := rfl
@[simp] theorem Eff.clearLog_clk (s : State) : (Eff.clearLog.apply s).clk = s.clk := rfl
@[simp] theorem Eff.clearLog_evlog (s : State) : (Eff.clearLog.apply s).evlog = [] := rfl
@[simp] theorem Eff.clearLog_sched (s : State) : (Eff.clearLog.apply s).sched = s.sched := rfl
@[simp] theorem Eff.clearLog_cur (s : State) : (Eff.clearLog.apply s).cur = s.cur := rfl
@[simp] theorem Eff.clearLog_freeCtr (s : State) : (Eff.clearLog.apply s).freeCtr = s.freeCtr := rfl

/-! `drawFree` -/

@[simp] theorem Eff.drawFree_mem (n : Nat) (s : State) : ((Eff.drawFree n).apply s).mem = s.mem := rfl
@[simp] theorem Eff.drawFree_sync (n : Nat) (s : State) : ((Eff.drawFree n).apply s).sync = s.sync := rfl
@[simp] theorem Eff.drawFree_ctxs (n : Nat) (s : State) : ((Eff.drawFree n).apply s).ctxs = s.ctxs := rfl
@[simp] theorem Eff.drawFree_cores (n : Nat) (s : State) : ((Eff.drawFree n).apply s).cores = s.cores := rfl
@[simp] theorem Eff.drawFree_clusters (n : Nat) (s : State) : ((Eff.drawFree n).apply s).clusters = s.clusters := rfl
@[simp] theorem Eff.drawFree_parts (n : Nat) (s : State) : ((Eff.drawFree n).apply s).parts = s.parts := rfl
@[simp] theorem Eff.drawFree_launches (n : Nat) (s : State) : ((Eff.drawFree n).apply s).launches = s.launches := rfl
@[simp] theorem Eff.drawFree_nextLaunch (n : Nat) (s : State) : ((Eff.drawFree n).apply s).nextLaunch = s.nextLaunch := rfl
@[simp] theorem Eff.drawFree_net (n : Nat) (s : State) : ((Eff.drawFree n).apply s).net = s.net := rfl
@[simp] theorem Eff.drawFree_mgmt (n : Nat) (s : State) : ((Eff.drawFree n).apply s).mgmt = s.mgmt := rfl
@[simp] theorem Eff.drawFree_errs (n : Nat) (s : State) : ((Eff.drawFree n).apply s).errs = s.errs := rfl
@[simp] theorem Eff.drawFree_capacity (n : Nat) (s : State) : ((Eff.drawFree n).apply s).capacity = s.capacity := rfl
@[simp] theorem Eff.drawFree_clk (n : Nat) (s : State) : ((Eff.drawFree n).apply s).clk = s.clk := rfl
@[simp] theorem Eff.drawFree_evlog (n : Nat) (s : State) : ((Eff.drawFree n).apply s).evlog = s.evlog := rfl
@[simp] theorem Eff.drawFree_sched (n : Nat) (s : State) : ((Eff.drawFree n).apply s).sched = s.sched := rfl
@[simp] theorem Eff.drawFree_cur (n : Nat) (s : State) : ((Eff.drawFree n).apply s).cur = s.cur := rfl
@[simp] theorem Eff.drawFree_freeCtr (n : Nat) (s : State) : ((Eff.drawFree n).apply s).freeCtr = s.freeCtr + n := rfl

/-! `powerLoss` -/

@[simp] theorem Eff.powerLoss_mem (x : Mgmt) (s : State) : ((Eff.powerLoss x).apply s).mem = Mem.wipe 0 (poolKey 4608 0) s.mem :=
    rfl
@[simp] theorem Eff.powerLoss_sync (x : Mgmt) (s : State) : ((Eff.powerLoss x).apply s).sync = State.reset.sync := rfl
@[simp] theorem Eff.powerLoss_ctxs (x : Mgmt) (s : State) : ((Eff.powerLoss x).apply s).ctxs = State.reset.ctxs := rfl
@[simp] theorem Eff.powerLoss_cores (x : Mgmt) (s : State) : ((Eff.powerLoss x).apply s).cores = State.reset.cores := rfl
@[simp] theorem Eff.powerLoss_clusters (x : Mgmt) (s : State) : ((Eff.powerLoss x).apply s).clusters = State.reset.clusters :=
    rfl
@[simp] theorem Eff.powerLoss_parts (x : Mgmt) (s : State) : ((Eff.powerLoss x).apply s).parts = State.reset.parts := rfl
@[simp] theorem Eff.powerLoss_launches (x : Mgmt) (s : State) : ((Eff.powerLoss x).apply s).launches = State.reset.launches :=
    rfl
@[simp] theorem Eff.powerLoss_nextLaunch (x : Mgmt) (s : State) : ((Eff.powerLoss x).apply s).nextLaunch = State.reset.nextLaunch :=
    rfl
@[simp] theorem Eff.powerLoss_net (x : Mgmt) (s : State) : ((Eff.powerLoss x).apply s).net = State.reset.net := rfl
@[simp] theorem Eff.powerLoss_mgmt (x : Mgmt) (s : State) : ((Eff.powerLoss x).apply s).mgmt = x := rfl
@[simp] theorem Eff.powerLoss_errs (x : Mgmt) (s : State) : ((Eff.powerLoss x).apply s).errs = { critical := s.errs.critical } :=
    rfl
@[simp] theorem Eff.powerLoss_capacity (x : Mgmt) (s : State) : ((Eff.powerLoss x).apply s).capacity = s.capacity := rfl
@[simp] theorem Eff.powerLoss_clk (x : Mgmt) (s : State) : ((Eff.powerLoss x).apply s).clk = State.reset.clk := rfl
@[simp] theorem Eff.powerLoss_evlog (x : Mgmt) (s : State) : ((Eff.powerLoss x).apply s).evlog = State.reset.evlog := rfl
@[simp] theorem Eff.powerLoss_sched (x : Mgmt) (s : State) : ((Eff.powerLoss x).apply s).sched = s.sched := rfl
@[simp] theorem Eff.powerLoss_cur (x : Mgmt) (s : State) : ((Eff.powerLoss x).apply s).cur = State.reset.cur := rfl
@[simp] theorem Eff.powerLoss_freeCtr (x : Mgmt) (s : State) : ((Eff.powerLoss x).apply s).freeCtr = s.freeCtr := rfl

end Sys2Proof.Machine
end

