-- ==== Sys2Proof/Laws/Acts.lean ====
section
/-! SUPPORT. Every meaning is a list of primitive changes: one lemma for each shared operation and each meaning, and the
induction over a step that they give. -/

namespace Sys2Proof.Machine

/-- An outcome reached from `s` by primitive changes alone. -/
def Acts (s : State) (o : Host.Outcome State Fault Refusal) : Prop := ∃ es, o = act s es

theorem acts_act (s : State) (es : List Eff) : Acts s (act s es) := ⟨es, rfl⟩

theorem acts_runM (p : M Unit) (s : State) : Acts s (runM p s) := ⟨_, rfl⟩

@[simp] theorem applyAll_nil (s : State) : applyAll [] s = s := rfl

@[simp] theorem applyAll_cons (e : Eff) (es : List Eff) (s : State) : applyAll (e :: es) s = applyAll es (e.apply s) := rfl

theorem applyAll_append (a b : List Eff) (s : State) : applyAll (a ++ b) s = applyAll b (applyAll a s) := by
  simp [applyAll]

/-- A property kept by each primitive change is kept by a list of them. -/
theorem applyAll_keeps (P : State → Prop) (h : ∀ e s, P s → P (Eff.apply e s)) :
    ∀ (es : List Eff) (s : State), P s → P (applyAll es s) := by
  intro es
  induction es with
  | nil => exact fun s hs => hs
  | cons e es ih => exact fun s hs => ih _ (h e s hs)

theorem Acts.next {s : State} {o : Host.Outcome State Fault Refusal} (h : Acts s o) :
    ∃ es, o = .next (applyAll es s) := h

/-! ### Shared operations -/

theorem pureForm_acts (gm : Guard) (ts : List Target) (slots : List Slot) (lat : Nat) (x : Bool)
    (v : Inst → Snap → Token) (s : State) : Acts s (pureForm gm ts slots lat x v s) := by
  unfold pureForm
  repeat' first | exact acts_act .. | split | dsimp only

theorem pureA_acts (f : FmtA) (slots : List Slot) (lat : Nat) (v : Inst → Snap → Token) (s : State) :
    Acts s (pureA f slots lat v s) := pureForm_acts ..

theorem fireM_acts (gm : Guard) (ts : List Target) (slots : List Slot) (irr : Bool) (go : Inst → Window → M Unit)
    (s : State) (lat : Nat) : Acts s (fireM gm ts slots irr go s lat) := by
  unfold fireM
  dsimp only
  repeat' first | split | dsimp only
  all_goals first | exact acts_act ..

theorem intS_acts (f : FmtA) (v : Nat → Word → Word → Int) (s : State) : Acts s (intS f v s) := pureA_acts ..
theorem intU_acts (f : FmtA) (v : Nat → Word → Word → Int) (s : State) : Acts s (intU f v s) := pureA_acts ..
theorem intS1_acts (f : FmtA) (b : Word) (v : Nat → Word → Word → Int) (s : State) : Acts s (intS1 f b v s) := pureA_acts ..
theorem intU1_acts (f : FmtA) (b : Word) (v : Nat → Word → Word → Int) (s : State) : Acts s (intU1 f b v s) := pureA_acts ..

theorem cmpForm_acts (c : Cmp) (f : FmtA) (s : State) : Acts s (cmpForm c f s) := pureA_acts ..

theorem cmpImm_acts (c : Cmp) (f : FmtA) (s : State) : Acts s (cmpImm c f s) := pureA_acts ..

theorem fpsArith_acts (f : FmtA) (slots : List Slot) (lat : Nat) (v : FloatFmt → Rmode → (Slot → FVal) → Nat) (s :
    State) : Acts s (fpsArith f slots lat v s) := by
  unfold fpsArith
  repeat' first | exact acts_act .. | exact acts_runM .. | exact fireM_acts .. | exact pureForm_acts ..

theorem fpsCmp_acts (f : FmtA) (p : FVal → FVal → Bool) (s : State) : Acts s (fpsCmp f p s) := by
  unfold fpsCmp
  repeat' first | exact acts_act .. | exact acts_runM .. | exact fireM_acts .. | exact pureForm_acts ..

theorem vecForm_acts (f : FmtA) (slots : List Slot) (lat : Nat) (v : Inst → Snap → Option Token) (s : State) : Acts s
    (vecForm f slots lat v s) := by
  unfold vecForm
  repeat' first | exact acts_act .. | exact acts_runM .. | exact fireM_acts ..

theorem lanewise_acts (f : FmtA) (op : LaneOp) (slots : List Slot) (lat : Nat) (s : State) : Acts s (lanewise f op
    slots lat s) := vecForm_acts ..

theorem triForm_acts (f : FmtA) (op : Int → Int → Int) (s : State) : Acts s (triForm f op s) := by
  unfold triForm
  repeat' first | exact acts_act .. | exact acts_runM .. | exact fireM_acts ..

theorem loadForm_acts (f : FmtM) (n : Nat) (s : State) : Acts s (loadForm f n s) := fireM_acts ..

theorem storeForm_acts (f : FmtM) (n : Nat) (s : State) : Acts s (storeForm f n s) := fireM_acts ..

theorem wordForm_acts (gm : Guard) (ts : List Target) (lsid rank : Nat) (cls : AccClass) (slots : List Slot) (off :
    Int) (q : Ask) (irr reads writes : Bool) (op : Inst → Window → MemOp) (s : State) : Acts s (wordForm gm ts lsid rank
    cls slots off q irr reads writes op s) := fireM_acts ..

theorem syncForm_acts (f : FmtM) (slots : List Slot) (need : Rights) (irr reads writes : Bool) (op : Inst → MemOp) (s
    : State) : Acts s (syncForm f slots need irr reads writes op s) := wordForm_acts ..

theorem atomForm_acts (f : FmtM) (slots : List Slot) (op : AtomOp) (s : State) : Acts s (atomForm f slots op s) := wordForm_acts ..

theorem poolWordForm_acts (f : FmtE) (need : Rights) (irr reads writes : Bool) (op : MemOp) (s : State) : Acts s
    (poolWordForm f need irr reads writes op s) := wordForm_acts ..

theorem rateForm_acts (f : FmtE) (slots : List Slot) (irr : Bool) (need : Rights) (op : Inst → RateOp) (s : State) :
    Acts s (rateForm f slots irr need op s) := fireM_acts ..

theorem command_acts (f : FmtE) (slots : List Slot) (s : State) : Acts s (command f slots s) := fireM_acts ..

theorem serve_acts (path : ReqPath) (op : Nat) (mine : List Nat → Bool) (masks : List Nat) (body : MgmtReq → List Nat
    → M MgmtEnd) (s : State) : Acts s (serve path op mine masks body s) := by
  unfold serve
  repeat' first | exact acts_act .. | exact acts_runM .. | exact fireM_acts .. | exact pureForm_acts .. | split | dsimp only

theorem setAttached_acts (path : ReqPath) (b : Bool) (s : State) : Acts s (setAttached path b s) := serve_acts ..

theorem readUnit_acts (path : ReqPath) (unit : Nat) (extra : Bool) (image : Nat → Nat → List Byte) (s : State) : Acts
    s (readUnit path unit extra image s) := serve_acts ..

theorem ringPage_acts (s : State) (cl : Nat) (go : PageAsk → M Unit) : Acts s (ringPage s cl go) := by
  unfold ringPage
  repeat' first | exact acts_act .. | exact acts_runM .. | exact fireM_acts .. | exact pureForm_acts .. | split | dsimp only

theorem engineStep_acts (cl engine : Nat) (prog : Job → E (Nat × Nat × Nat)) (s : State) : Acts s (engineStep cl
    engine prog s) := by
  unfold engineStep
  repeat' first | exact acts_act .. | exact acts_runM .. | exact fireM_acts .. | exact pureForm_acts .. | split

/-! ### Meanings -/

theorem execAdd_acts (f : FmtA) (s : State) : Acts s (execAdd f s) := intS_acts ..

theorem execSub_acts (f : FmtA) (s : State) : Acts s (execSub f s) := intS_acts ..

theorem execMul_acts (f : FmtA) (s : State) : Acts s (execMul f s) := intS_acts ..

theorem execMulh_acts (f : FmtA) (s : State) : Acts s (execMulh f s) := intS_acts ..

theorem execMulhu_acts (f : FmtA) (s : State) : Acts s (execMulhu f s) := intU_acts ..

theorem execDiv_acts (f : FmtA) (s : State) : Acts s (execDiv f s) := intS_acts ..

theorem execDivu_acts (f : FmtA) (s : State) : Acts s (execDivu f s) := intU_acts ..

theorem execRem_acts (f : FmtA) (s : State) : Acts s (execRem f s) := intS_acts ..

theorem execRemu_acts (f : FmtA) (s : State) : Acts s (execRemu f s) := intU_acts ..

theorem execMin_acts (f : FmtA) (s : State) : Acts s (execMin f s) := intS_acts ..

theorem execMax_acts (f : FmtA) (s : State) : Acts s (execMax f s) := intS_acts ..

theorem execMinu_acts (f : FmtA) (s : State) : Acts s (execMinu f s) := intU_acts ..

theorem execMaxu_acts (f : FmtA) (s : State) : Acts s (execMaxu f s) := intU_acts ..

theorem execNeg_acts (f : FmtA) (s : State) : Acts s (execNeg f s) := intS1_acts ..

theorem execAbs_acts (f : FmtA) (s : State) : Acts s (execAbs f s) := intS1_acts ..

theorem execAddi_acts (f : FmtA) (s : State) : Acts s (execAddi f s) := intS1_acts ..

theorem execMuli_acts (f : FmtA) (s : State) : Acts s (execMuli f s) := intS1_acts ..

theorem execAndi_acts (f : FmtA) (s : State) : Acts s (execAndi f s) := intU1_acts ..

theorem execOri_acts (f : FmtA) (s : State) : Acts s (execOri f s) := intU1_acts ..

theorem execXori_acts (f : FmtA) (s : State) : Acts s (execXori f s) := intU1_acts ..

theorem execShli_acts (f : FmtA) (s : State) : Acts s (execShli f s) := intU1_acts ..

theorem execShri_acts (f : FmtA) (s : State) : Acts s (execShri f s) := intU1_acts ..

theorem execSari_acts (f : FmtA) (s : State) : Acts s (execSari f s) := intS1_acts ..

theorem execCeqi_acts (f : FmtA) (s : State) : Acts s (execCeqi f s) := cmpImm_acts ..

theorem execCnei_acts (f : FmtA) (s : State) : Acts s (execCnei f s) := cmpImm_acts ..

theorem execClti_acts (f : FmtA) (s : State) : Acts s (execClti f s) := cmpImm_acts ..

theorem execClei_acts (f : FmtA) (s : State) : Acts s (execClei f s) := cmpImm_acts ..

theorem execCltui_acts (f : FmtA) (s : State) : Acts s (execCltui f s) := cmpImm_acts ..

theorem execCleui_acts (f : FmtA) (s : State) : Acts s (execCleui f s) := cmpImm_acts ..

theorem execLea_acts (f : FmtA) (s : State) : Acts s (execLea f s) := intU_acts ..

theorem execAnd_acts (f : FmtA) (s : State) : Acts s (execAnd f s) := intU_acts ..

theorem execOr_acts (f : FmtA) (s : State) : Acts s (execOr f s) := intU_acts ..

theorem execXor_acts (f : FmtA) (s : State) : Acts s (execXor f s) := intU_acts ..

theorem execNot_acts (f : FmtA) (s : State) : Acts s (execNot f s) := intU1_acts ..

theorem execShl_acts (f : FmtA) (s : State) : Acts s (execShl f s) := intU_acts ..

theorem execShr_acts (f : FmtA) (s : State) : Acts s (execShr f s) := intU_acts ..

theorem execSar_acts (f : FmtA) (s : State) : Acts s (execSar f s) := intS_acts ..

theorem execRot_acts (f : FmtA) (s : State) : Acts s (execRot f s) := intU_acts ..

theorem execClz_acts (f : FmtA) (s : State) : Acts s (execClz f s) := intU1_acts ..

theorem execCtz_acts (f : FmtA) (s : State) : Acts s (execCtz f s) := intU1_acts ..

theorem execPopc_acts (f : FmtA) (s : State) : Acts s (execPopc f s) := intU1_acts ..

theorem execBfx_acts (f : FmtA) (s : State) : Acts s (execBfx f s) := intU_acts ..

theorem execBfi_acts (f : FmtA) (s : State) : Acts s (execBfi f s) := pureA_acts ..

theorem execSext_acts (f : FmtA) (s : State) : Acts s (execSext f s) := intS1_acts ..

theorem execZext_acts (f : FmtA) (s : State) : Acts s (execZext f s) := intU1_acts ..

theorem execCeq_acts (f : FmtA) (s : State) : Acts s (execCeq f s) := cmpForm_acts ..

theorem execCne_acts (f : FmtA) (s : State) : Acts s (execCne f s) := cmpForm_acts ..

theorem execClt_acts (f : FmtA) (s : State) : Acts s (execClt f s) := cmpForm_acts ..

theorem execCle_acts (f : FmtA) (s : State) : Acts s (execCle f s) := cmpForm_acts ..

theorem execCltu_acts (f : FmtA) (s : State) : Acts s (execCltu f s) := cmpForm_acts ..

theorem execCleu_acts (f : FmtA) (s : State) : Acts s (execCleu f s) := cmpForm_acts ..

theorem execPand_acts (f : FmtA) (s : State) : Acts s (execPand f s) := pureA_acts ..

theorem execPor_acts (f : FmtA) (s : State) : Acts s (execPor f s) := pureA_acts ..

theorem execPxor_acts (f : FmtA) (s : State) : Acts s (execPxor f s) := pureA_acts ..

theorem execPnot_acts (f : FmtA) (s : State) : Acts s (execPnot f s) := pureA_acts ..

theorem execPpack_acts (f : FmtA) (s : State) : Acts s (execPpack f s) := pureA_acts ..

theorem execPbit_acts (f : FmtA) (s : State) : Acts s (execPbit f s) := pureA_acts ..

theorem execSel_acts (f : FmtA) (s : State) : Acts s (execSel f s) := pureA_acts ..

theorem execIsnull_acts (f : FmtA) (s : State) : Acts s (execIsnull f s) := pureForm_acts ..

theorem execMov_acts (f : FmtA) (s : State) : Acts s (execMov f s) := pureA_acts ..

theorem execMovi_acts (f : FmtK) (s : State) : Acts s (execMovi f s) := pureForm_acts ..

theorem execMovhi_acts (f : FmtA) (s : State) : Acts s (execMovhi f s) := pureA_acts ..

theorem execNull_acts (f : FmtA) (s : State) : Acts s (execNull f s) := pureA_acts ..

theorem execGet_acts (f : FmtG) (s : State) : Acts s (execGet f s) := pureForm_acts ..

theorem execMfc_acts (f : FmtA) (s : State) : Acts s (execMfc f s) := by
  unfold execMfc
  repeat' first | exact acts_act .. | exact acts_runM .. | exact fireM_acts ..

theorem execMtc_acts (f : FmtA) (s : State) : Acts s (execMtc f s) := by
  unfold execMtc
  repeat' first | exact acts_act .. | exact acts_runM .. | exact fireM_acts ..

theorem execGtid_acts (f : FmtA) (s : State) : Acts s (execGtid f s) := pureA_acts ..

theorem execCore_acts (f : FmtA) (s : State) : Acts s (execCore f s) := pureA_acts ..

theorem execClk_acts (f : FmtA) (s : State) : Acts s (execClk f s) := pureA_acts ..

theorem execSigchk_acts (f : FmtA) (s : State) : Acts s (execSigchk f s) := fireM_acts ..

theorem execFadd_acts (f : FmtA) (s : State) : Acts s (execFadd f s) := fpsArith_acts ..

theorem execFsub_acts (f : FmtA) (s : State) : Acts s (execFsub f s) := fpsArith_acts ..

theorem execFmul_acts (f : FmtA) (s : State) : Acts s (execFmul f s) := fpsArith_acts ..

theorem execFdiv_acts (f : FmtA) (s : State) : Acts s (execFdiv f s) := fpsArith_acts ..

theorem execFsqrt_acts (f : FmtA) (s : State) : Acts s (execFsqrt f s) := fpsArith_acts ..

theorem execFma_acts (f : FmtA) (s : State) : Acts s (execFma f s) := fpsArith_acts ..

theorem execFmin_acts (f : FmtA) (s : State) : Acts s (execFmin f s) := pureA_acts ..

theorem execFmax_acts (f : FmtA) (s : State) : Acts s (execFmax f s) := pureA_acts ..

theorem execFneg_acts (f : FmtA) (s : State) : Acts s (execFneg f s) := pureA_acts ..

theorem execFabs_acts (f : FmtA) (s : State) : Acts s (execFabs f s) := pureA_acts ..

theorem execFceq_acts (f : FmtA) (s : State) : Acts s (execFceq f s) := fpsCmp_acts ..

theorem execFclt_acts (f : FmtA) (s : State) : Acts s (execFclt f s) := fpsCmp_acts ..

theorem execFcle_acts (f : FmtA) (s : State) : Acts s (execFcle f s) := fpsCmp_acts ..

theorem execFcun_acts (f : FmtA) (s : State) : Acts s (execFcun f s) := fpsCmp_acts ..

theorem execCvt_acts (f : FmtA) (s : State) : Acts s (execCvt f s) := pureA_acts ..

theorem execBra_acts (f : FmtB) (s : State) : Acts s (execBra f s) := fireM_acts ..

theorem execJmp_acts (f : FmtB) (s : State) : Acts s (execJmp f s) := fireM_acts ..

theorem execCall_acts (f : FmtB) (s : State) : Acts s (execCall f s) := fireM_acts ..

theorem execRet_acts (f : FmtB) (s : State) : Acts s (execRet f s) := fireM_acts ..

theorem execTend_acts (f : FmtB) (s : State) : Acts s (execTend f s) := fireM_acts ..

theorem execTrap_acts (f : FmtB) (s : State) : Acts s (execTrap f s) := fireM_acts ..

theorem execMig_acts (f : FmtB) (s : State) : Acts s (execMig f s) := fireM_acts ..

theorem execFork_acts (f : FmtE) (s : State) : Acts s (execFork f s) := fireM_acts ..

theorem execJoin_acts (f : FmtE) (s : State) : Acts s (execJoin f s) := poolWordForm_acts ..

theorem execJwait_acts (f : FmtE) (s : State) : Acts s (execJwait f s) := poolWordForm_acts ..

theorem execPause_acts (f : FmtS) (s : State) : Acts s (execPause f s) := fireM_acts ..

theorem execRngopen_acts (f : FmtE) (s : State) : Acts s (execRngopen f s) := fireM_acts ..

theorem execRngdraw_acts (f : FmtS) (s : State) : Acts s (execRngdraw f s) := fireM_acts ..

theorem execRngclose_acts (f : FmtE) (s : State) : Acts s (execRngclose f s) := fireM_acts ..

theorem execVadd_acts (f : FmtA) (s : State) : Acts s (execVadd f s) := lanewise_acts ..

theorem execVsub_acts (f : FmtA) (s : State) : Acts s (execVsub f s) := lanewise_acts ..

theorem execVmul_acts (f : FmtA) (s : State) : Acts s (execVmul f s) := lanewise_acts ..

theorem execVfma_acts (f : FmtA) (s : State) : Acts s (execVfma f s) := lanewise_acts ..

theorem execVmin_acts (f : FmtA) (s : State) : Acts s (execVmin f s) := lanewise_acts ..

theorem execVmax_acts (f : FmtA) (s : State) : Acts s (execVmax f s) := lanewise_acts ..

theorem execVabs_acts (f : FmtA) (s : State) : Acts s (execVabs f s) := lanewise_acts ..

theorem execVneg_acts (f : FmtA) (s : State) : Acts s (execVneg f s) := lanewise_acts ..

theorem execVdiv_acts (f : FmtA) (s : State) : Acts s (execVdiv f s) := lanewise_acts ..

theorem execVsqrt_acts (f : FmtA) (s : State) : Acts s (execVsqrt f s) := lanewise_acts ..

theorem execVcmp_acts (f : FmtA) (s : State) : Acts s (execVcmp f s) := vecForm_acts ..

theorem execVsel_acts (f : FmtA) (s : State) : Acts s (execVsel f s) := vecForm_acts ..

theorem execVmask_acts (f : FmtA) (s : State) : Acts s (execVmask f s) := vecForm_acts ..

theorem execVtmul_acts (f : FmtA) (s : State) : Acts s (execVtmul f s) := triForm_acts ..

theorem execVtadd_acts (f : FmtA) (s : State) : Acts s (execVtadd f s) := triForm_acts ..

theorem execVcvt_acts (f : FmtA) (s : State) : Acts s (execVcvt f s) := vecForm_acts ..

theorem execVscale_acts (f : FmtA) (s : State) : Acts s (execVscale f s) := vecForm_acts ..

theorem execVdot_acts (f : FmtA) (s : State) : Acts s (execVdot f s) := vecForm_acts ..

theorem execVred_acts (f : FmtA) (s : State) : Acts s (execVred f s) := vecForm_acts ..

theorem execVperm_acts (f : FmtA) (s : State) : Acts s (execVperm f s) := vecForm_acts ..

theorem execVbcast_acts (f : FmtA) (s : State) : Acts s (execVbcast f s) := vecForm_acts ..

theorem execVext_acts (f : FmtA) (s : State) : Acts s (execVext f s) := vecForm_acts ..

theorem execVins_acts (f : FmtA) (s : State) : Acts s (execVins f s) := vecForm_acts ..

theorem execVtag_acts (f : FmtA) (s : State) : Acts s (execVtag f s) := vecForm_acts ..

theorem execLdb_acts (f : FmtM) (s : State) : Acts s (execLdb f s) := loadForm_acts ..

theorem execLdh_acts (f : FmtM) (s : State) : Acts s (execLdh f s) := loadForm_acts ..

theorem execLdw_acts (f : FmtM) (s : State) : Acts s (execLdw f s) := loadForm_acts ..

theorem execLdd_acts (f : FmtM) (s : State) : Acts s (execLdd f s) := loadForm_acts ..

theorem execLdbu_acts (f : FmtM) (s : State) : Acts s (execLdbu f s) := loadForm_acts ..

theorem execLdhu_acts (f : FmtM) (s : State) : Acts s (execLdhu f s) := loadForm_acts ..

theorem execLdwu_acts (f : FmtM) (s : State) : Acts s (execLdwu f s) := loadForm_acts ..

theorem execStb_acts (f : FmtM) (s : State) : Acts s (execStb f s) := storeForm_acts ..

theorem execSth_acts (f : FmtM) (s : State) : Acts s (execSth f s) := storeForm_acts ..

theorem execStw_acts (f : FmtM) (s : State) : Acts s (execStw f s) := storeForm_acts ..

theorem execStd_acts (f : FmtM) (s : State) : Acts s (execStd f s) := storeForm_acts ..

theorem execVld_acts (f : FmtM) (s : State) : Acts s (execVld f s) := fireM_acts ..

theorem execVst_acts (f : FmtM) (s : State) : Acts s (execVst f s) := fireM_acts ..

theorem execVldg_acts (f : FmtM) (s : State) : Acts s (execVldg f s) := fireM_acts ..

theorem execVsts_acts (f : FmtM) (s : State) : Acts s (execVsts f s) := fireM_acts ..

theorem execLdf_acts (f : FmtM) (s : State) : Acts s (execLdf f s) := syncForm_acts ..

theorem execLde_acts (f : FmtM) (s : State) : Acts s (execLde f s) := syncForm_acts ..

theorem execStf_acts (f : FmtM) (s : State) : Acts s (execStf f s) := syncForm_acts ..

theorem execSts_acts (f : FmtM) (s : State) : Acts s (execSts f s) := syncForm_acts ..

theorem execFeset_acts (f : FmtM) (s : State) : Acts s (execFeset f s) := syncForm_acts ..

theorem execFeclr_acts (f : FmtM) (s : State) : Acts s (execFeclr f s) := syncForm_acts ..

theorem execFeget_acts (f : FmtM) (s : State) : Acts s (execFeget f s) := syncForm_acts ..

theorem execFence_acts (f : FmtM) (s : State) : Acts s (execFence f s) := fireM_acts ..

theorem execAadd_acts (f : FmtM) (s : State) : Acts s (execAadd f s) := atomForm_acts ..

theorem execAmin_acts (f : FmtM) (s : State) : Acts s (execAmin f s) := atomForm_acts ..

theorem execAmax_acts (f : FmtM) (s : State) : Acts s (execAmax f s) := atomForm_acts ..

theorem execAminu_acts (f : FmtM) (s : State) : Acts s (execAminu f s) := atomForm_acts ..

theorem execAmaxu_acts (f : FmtM) (s : State) : Acts s (execAmaxu f s) := atomForm_acts ..

theorem execAand_acts (f : FmtM) (s : State) : Acts s (execAand f s) := atomForm_acts ..

theorem execAor_acts (f : FmtM) (s : State) : Acts s (execAor f s) := atomForm_acts ..

theorem execAxor_acts (f : FmtM) (s : State) : Acts s (execAxor f s) := atomForm_acts ..

theorem execAxch_acts (f : FmtM) (s : State) : Acts s (execAxch f s) := atomForm_acts ..

theorem execAcas_acts (f : FmtM) (s : State) : Acts s (execAcas f s) := atomForm_acts ..

theorem execAfadd_acts (f : FmtM) (s : State) : Acts s (execAfadd f s) := atomForm_acts ..

theorem execPfill_acts (f : FmtM) (s : State) : Acts s (execPfill f s) := fireM_acts ..

theorem execPgstat_acts (f : FmtM) (s : State) : Acts s (execPgstat f s) := fireM_acts ..

theorem execTlbinv_acts (f : FmtM) (s : State) : Acts s (execTlbinv f s) := fireM_acts ..

theorem execHwait_acts (f : FmtE) (s : State) : Acts s (execHwait f s) := poolWordForm_acts ..

theorem execHtest_acts (f : FmtS) (s : State) : Acts s (execHtest f s) := wordForm_acts ..

theorem execHcancel_acts (f : FmtE) (s : State) : Acts s (execHcancel f s) := fireM_acts ..

theorem execCpy_acts (f : FmtE) (s : State) : Acts s (execCpy f s) := command_acts ..

theorem execCpyx_acts (f : FmtE) (s : State) : Acts s (execCpyx f s) := command_acts ..

theorem execCpys_acts (f : FmtE) (s : State) : Acts s (execCpys f s) := command_acts ..

theorem execTmul_acts (f : FmtE) (s : State) : Acts s (execTmul f s) := command_acts ..

theorem execTmv_acts (f : FmtE) (s : State) : Acts s (execTmv f s) := command_acts ..

theorem execTadd_acts (f : FmtE) (s : State) : Acts s (execTadd f s) := command_acts ..

theorem execTasm_acts (f : FmtE) (s : State) : Acts s (execTasm f s) := command_acts ..

theorem execTtype_acts (f : FmtE) (s : State) : Acts s (execTtype f s) := command_acts ..

theorem execTfree_acts (f : FmtE) (s : State) : Acts s (execTfree f s) := command_acts ..

theorem execTcopy_acts (f : FmtE) (s : State) : Acts s (execTcopy f s) := command_acts ..

theorem execTtrans_acts (f : FmtE) (s : State) : Acts s (execTtrans f s) := command_acts ..

theorem execTsolve_acts (f : FmtE) (s : State) : Acts s (execTsolve f s) := command_acts ..

theorem execTchol_acts (f : FmtE) (s : State) : Acts s (execTchol f s) := command_acts ..

theorem execTresume_acts (f : FmtE) (s : State) : Acts s (execTresume f s) := command_acts ..

theorem execDvar_acts (f : FmtE) (s : State) : Acts s (execDvar f s) := command_acts ..

theorem execDapp_acts (f : FmtE) (s : State) : Acts s (execDapp f s) := command_acts ..

theorem execDnot_acts (f : FmtE) (s : State) : Acts s (execDnot f s) := command_acts ..

theorem execDite_acts (f : FmtE) (s : State) : Acts s (execDite f s) := command_acts ..

theorem execDres_acts (f : FmtE) (s : State) : Acts s (execDres f s) := command_acts ..

theorem execDexq_acts (f : FmtE) (s : State) : Acts s (execDexq f s) := command_acts ..

theorem execDcnt_acts (f : FmtE) (s : State) : Acts s (execDcnt f s) := command_acts ..

theorem execDref_acts (f : FmtE) (s : State) : Acts s (execDref f s) := command_acts ..

theorem execDunref_acts (f : FmtE) (s : State) : Acts s (execDunref f s) := command_acts ..

theorem execDgc_acts (f : FmtE) (s : State) : Acts s (execDgc f s) := command_acts ..

theorem execDsize_acts (f : FmtE) (s : State) : Acts s (execDsize f s) := command_acts ..

theorem execDresume_acts (f : FmtE) (s : State) : Acts s (execDresume f s) := command_acts ..

theorem execRsinit_acts (f : FmtE) (s : State) : Acts s (execRsinit f s) := rateForm_acts ..

theorem execRsbegin_acts (f : FmtE) (s : State) : Acts s (execRsbegin f s) := rateForm_acts ..

theorem execRsnext_acts (f : FmtE) (s : State) : Acts s (execRsnext f s) := rateForm_acts ..

theorem execRsread_acts (f : FmtE) (s : State) : Acts s (execRsread f s) := rateForm_acts ..

theorem execRsput_acts (f : FmtE) (s : State) : Acts s (execRsput f s) := rateForm_acts ..

theorem execRsstat_acts (f : FmtE) (s : State) : Acts s (execRsstat f s) := rateForm_acts ..

theorem execRfe_acts (f : FmtS) (s : State) : Acts s (execRfe f s) := fireM_acts ..

theorem execBkpt_acts (f : FmtS) (s : State) : Acts s (execBkpt f s) := fireM_acts ..

theorem execHalt_acts (f : FmtS) (s : State) : Acts s (execHalt f s) := fireM_acts ..

theorem execBlockFetch_acts (core ctx : Nat) (s : State) : Acts s (execBlockFetch core ctx s) := by
  unfold execBlockFetch
  repeat' first | exact acts_act .. | exact acts_runM .. | exact fireM_acts .. | exact serve_acts .. | exact ringPage_acts .. | split | dsimp only

theorem execCodeCacheFill_acts (core ctx : Nat) (s : State) : Acts s (execCodeCacheFill core ctx s) := by
  unfold execCodeCacheFill
  repeat' first | exact acts_act .. | exact acts_runM .. | exact fireM_acts .. | exact serve_acts .. | exact ringPage_acts .. | split | dsimp only

theorem execResultDelivery_acts (core ctx : Nat) (s : State) : Acts s (execResultDelivery core ctx s) := by
  unfold execResultDelivery
  repeat' first | exact acts_act .. | exact acts_runM .. | exact fireM_acts .. | exact serve_acts .. | exact ringPage_acts .. | split | dsimp only

theorem execBlockCommit_acts (core ctx : Nat) (s : State) : Acts s (execBlockCommit core ctx s) := by
  unfold execBlockCommit
  repeat' first | exact acts_act .. | exact acts_runM .. | exact fireM_acts .. | exact serve_acts .. | exact ringPage_acts .. | split | dsimp only

theorem execTrapEntry_acts (core ctx : Nat) (s : State) : Acts s (execTrapEntry core ctx s) := by
  unfold execTrapEntry
  repeat' first | exact acts_act .. | exact acts_runM .. | exact fireM_acts .. | exact serve_acts .. | exact ringPage_acts .. | split | dsimp only

theorem execTaskTerminate_acts (core ctx : Nat) (s : State) : Acts s (execTaskTerminate core ctx s) := by
  unfold execTaskTerminate
  repeat' first | exact acts_act .. | exact acts_runM .. | exact fireM_acts .. | exact serve_acts .. | exact ringPage_acts .. | split | dsimp only

theorem execTaskEnd_acts (core ctx : Nat) (s : State) : Acts s (execTaskEnd core ctx s) := by
  unfold execTaskEnd
  repeat' first | exact acts_act .. | exact acts_runM .. | exact fireM_acts .. | exact serve_acts .. | exact ringPage_acts .. | split | dsimp only

theorem execWaitRetry_acts (core ctx : Nat) (s : State) : Acts s (execWaitRetry core ctx s) := by
  unfold execWaitRetry
  repeat' first | exact acts_act .. | exact acts_runM .. | exact fireM_acts .. | exact serve_acts .. | exact ringPage_acts .. | split | dsimp only

theorem execSpinExpiry_acts (core ctx : Nat) (s : State) : Acts s (execSpinExpiry core ctx s) := by
  unfold execSpinExpiry
  repeat' first | exact acts_act .. | exact acts_runM .. | exact fireM_acts .. | exact serve_acts .. | exact ringPage_acts .. | split | dsimp only

theorem execParkAttempt_acts (core ctx : Nat) (s : State) : Acts s (execParkAttempt core ctx s) := by
  unfold execParkAttempt
  repeat' first | exact acts_act .. | exact acts_runM .. | exact fireM_acts .. | exact serve_acts .. | exact ringPage_acts .. | split | dsimp only

theorem execParkWriteout_acts (core ctx : Nat) (s : State) : Acts s (execParkWriteout core ctx s) := by
  unfold execParkWriteout
  repeat' first | exact acts_act .. | exact acts_runM .. | exact fireM_acts .. | exact serve_acts .. | exact ringPage_acts .. | split | dsimp only

theorem execParkSlotRetryExpiry_acts (core ctx : Nat) (s : State) : Acts s (execParkSlotRetryExpiry core ctx s) := by
  unfold execParkSlotRetryExpiry
  repeat' first | exact acts_act .. | exact acts_runM .. | exact fireM_acts .. | exact serve_acts .. | exact ringPage_acts .. | split | dsimp only

theorem execWakeDelivery_acts (core : Nat) (s : State) : Acts s (execWakeDelivery core s) := by
  unfold execWakeDelivery
  repeat' first | exact acts_act .. | exact acts_runM .. | exact fireM_acts .. | exact serve_acts .. | exact ringPage_acts .. | split | dsimp only

theorem execWlimitExpiry_acts (core pslot : Nat) (s : State) : Acts s (execWlimitExpiry core pslot s) := by
  unfold execWlimitExpiry
  repeat' first | exact acts_act .. | exact acts_runM .. | exact fireM_acts .. | exact serve_acts .. | exact ringPage_acts .. | split | dsimp only

theorem execWaitCancel_acts (core : Nat) (s : State) : Acts s (execWaitCancel core s) := by
  unfold execWaitCancel
  repeat' first | exact acts_act .. | exact acts_runM .. | exact fireM_acts .. | exact serve_acts .. | exact ringPage_acts .. | split | dsimp only

theorem execFindWork_acts (core ctx : Nat) (s : State) : Acts s (execFindWork core ctx s) := by
  unfold execFindWork
  repeat' first | exact acts_act .. | exact acts_runM .. | exact fireM_acts .. | exact serve_acts .. | exact ringPage_acts .. | split | dsimp only

theorem execStealAttempt_acts (core ctx : Nat) (s : State) : Acts s (execStealAttempt core ctx s) := by
  unfold execStealAttempt
  repeat' first | exact acts_act .. | exact acts_runM .. | exact fireM_acts .. | exact serve_acts .. | exact ringPage_acts .. | split | dsimp only

theorem execStealBackoffExpiry_acts (core ctx : Nat) (s : State) : Acts s (execStealBackoffExpiry core ctx s) := by
  unfold execStealBackoffExpiry
  repeat' first | exact acts_act .. | exact acts_runM .. | exact fireM_acts .. | exact serve_acts .. | exact ringPage_acts .. | split | dsimp only

theorem execRootPlacement_acts (launch : Nat) (s : State) : Acts s (execRootPlacement launch s) := by
  unfold execRootPlacement
  repeat' first | exact acts_act .. | exact acts_runM .. | exact fireM_acts .. | exact serve_acts .. | exact ringPage_acts .. | split | dsimp only

theorem execMigrationArrival_acts (core : Nat) (s : State) : Acts s (execMigrationArrival core s) := by
  unfold execMigrationArrival
  repeat' first | exact acts_act .. | exact acts_runM .. | exact fireM_acts .. | exact serve_acts .. | exact ringPage_acts .. | split | dsimp only

theorem execMigrationNack_acts (core ctx : Nat) (s : State) : Acts s (execMigrationNack core ctx s) := by
  unfold execMigrationNack
  repeat' first | exact acts_act .. | exact acts_runM .. | exact fireM_acts .. | exact serve_acts .. | exact ringPage_acts .. | split | dsimp only

theorem execMigrationRetryExpiry_acts (core ctx : Nat) (s : State) : Acts s (execMigrationRetryExpiry core ctx s) := by
  unfold execMigrationRetryExpiry
  repeat' first | exact acts_act .. | exact acts_runM .. | exact fireM_acts .. | exact serve_acts .. | exact ringPage_acts .. | split | dsimp only

theorem execReplyArrival_acts (core ctx : Nat) (s : State) : Acts s (execReplyArrival core ctx s) := by
  unfold execReplyArrival
  repeat' first | exact acts_act .. | exact acts_runM .. | exact fireM_acts .. | exact serve_acts .. | exact ringPage_acts .. | split | dsimp only

theorem execPauseExpiry_acts (core ctx : Nat) (s : State) : Acts s (execPauseExpiry core ctx s) := by
  unfold execPauseExpiry
  repeat' first | exact acts_act .. | exact acts_runM .. | exact fireM_acts .. | exact serve_acts .. | exact ringPage_acts .. | split | dsimp only

theorem execPoolScrub_acts (core word : Nat) (s : State) : Acts s (execPoolScrub core word s) := by
  unfold execPoolScrub
  repeat' first | exact acts_act .. | exact acts_runM .. | exact fireM_acts .. | exact serve_acts .. | exact ringPage_acts .. | split | dsimp only

theorem execSendNonRelaxed_acts (core ctx : Nat) (s : State) : Acts s (execSendNonRelaxed core ctx s) := by
  unfold execSendNonRelaxed
  repeat' first | exact acts_act .. | exact acts_runM .. | exact fireM_acts .. | exact serve_acts .. | exact ringPage_acts .. | split | dsimp only

theorem execSendRelaxed_acts (core ctx nth : Nat) (s : State) : Acts s (execSendRelaxed core ctx nth s) := by
  unfold execSendRelaxed
  repeat' first | exact acts_act .. | exact acts_runM .. | exact fireM_acts .. | exact serve_acts .. | exact ringPage_acts .. | split | dsimp only

theorem execArrive_acts (source : Source) (home : Home) (s : State) : Acts s (execArrive source home s) := by
  unfold execArrive
  repeat' first | exact acts_act .. | exact acts_runM .. | exact fireM_acts .. | exact serve_acts .. | exact ringPage_acts .. | split | dsimp only

theorem execPerform_acts (home : Home) (s : State) : Acts s (execPerform home s) := by
  unfold execPerform
  repeat' first | exact acts_act .. | exact acts_runM .. | exact fireM_acts .. | exact serve_acts .. | exact ringPage_acts .. | split | dsimp only

theorem execReplay_acts (cluster nth : Nat) (s : State) : Acts s (execReplay cluster nth s) := by
  unfold execReplay
  repeat' first | exact acts_act .. | exact acts_runM .. | exact fireM_acts .. | exact serve_acts .. | exact ringPage_acts .. | split | dsimp only

theorem execAcknowledge_acts (core ctx : Nat) (s : State) : Acts s (execAcknowledge core ctx s) := by
  unfold execAcknowledge
  repeat' first | exact acts_act .. | exact acts_runM .. | exact fireM_acts .. | exact serve_acts .. | exact ringPage_acts .. | split | dsimp only

theorem execFaultRecordPost_acts (cluster : Nat) (s : State) : Acts s (execFaultRecordPost cluster s) := by
  unfold execFaultRecordPost
  repeat' first | exact acts_act .. | exact acts_runM .. | exact fireM_acts .. | exact serve_acts .. | exact ringPage_acts .. | split | dsimp only

theorem execFaultPostRetryExpiry_acts (core ctx : Nat) (s : State) : Acts s (execFaultPostRetryExpiry core ctx s) := by
  unfold execFaultPostRetryExpiry
  repeat' first | exact acts_act .. | exact acts_runM .. | exact fireM_acts .. | exact serve_acts .. | exact ringPage_acts .. | split | dsimp only

theorem execEngineJobResolve_acts (cluster slot : Nat) (s : State) : Acts s (execEngineJobResolve cluster slot s) := by
  unfold execEngineJobResolve
  repeat' first | exact acts_act .. | exact acts_runM .. | exact fireM_acts .. | exact serve_acts .. | exact ringPage_acts .. | split | dsimp only

theorem execMapExecutable_acts (cluster : Nat) (s : State) : Acts s (execMapExecutable cluster s) := by
  unfold execMapExecutable
  repeat' first | exact acts_act .. | exact acts_runM .. | exact fireM_acts .. | exact serve_acts .. | exact ringPage_acts .. | split | dsimp only

theorem execWithdrawExecutable_acts (cluster : Nat) (s : State) : Acts s (execWithdrawExecutable cluster s) := by
  unfold execWithdrawExecutable
  repeat' first | exact acts_act .. | exact acts_runM .. | exact fireM_acts .. | exact serve_acts .. | exact ringPage_acts .. | split | dsimp only

theorem execPfillRelaxedWalk_acts (core ctx : Nat) (s : State) : Acts s (execPfillRelaxedWalk core ctx s) := by
  unfold execPfillRelaxedWalk
  repeat' first | exact acts_act .. | exact acts_runM .. | exact fireM_acts .. | exact serve_acts .. | exact ringPage_acts .. | split | dsimp only

theorem execQueueReservationExpiry_acts (cluster slot : Nat) (s : State) : Acts s (execQueueReservationExpiry cluster slot s) := by
  unfold execQueueReservationExpiry
  repeat' first | exact acts_act .. | exact acts_runM .. | exact fireM_acts .. | exact serve_acts .. | exact ringPage_acts .. | split | dsimp only

theorem execTmeStep_acts (cluster : Nat) (s : State) : Acts s (execTmeStep cluster s) := engineStep_acts ..

theorem execDdeStep_acts (cluster : Nat) (s : State) : Acts s (execDdeStep cluster s) := by
  unfold execDdeStep
  repeat' first | exact acts_act .. | exact acts_runM .. | exact fireM_acts .. | exact serve_acts .. | exact ringPage_acts .. | split | dsimp only

theorem execCopyFrame_acts (cluster : Nat) (s : State) : Acts s (execCopyFrame cluster s) := by
  unfold execCopyFrame
  repeat' first | exact acts_act .. | exact acts_runM .. | exact fireM_acts .. | exact serve_acts .. | exact ringPage_acts .. | split | dsimp only

theorem execCpyxChunk_acts (cluster chunk : Nat) (s : State) : Acts s (execCpyxChunk cluster chunk s) := by
  unfold execCpyxChunk
  repeat' first | exact acts_act .. | exact acts_runM .. | exact fireM_acts .. | exact serve_acts .. | exact ringPage_acts .. | split | dsimp only

theorem execCpyxFinish_acts (cluster : Nat) (s : State) : Acts s (execCpyxFinish cluster s) := by
  unfold execCpyxFinish
  repeat' first | exact acts_act .. | exact acts_runM .. | exact fireM_acts .. | exact serve_acts .. | exact ringPage_acts .. | split | dsimp only

theorem execEclipseRaise_acts (part : Nat) (src : EclipseSource) (s : State) : Acts s (execEclipseRaise part src s) := by
  unfold execEclipseRaise
  repeat' first | exact acts_act .. | exact acts_runM .. | exact fireM_acts .. | exact serve_acts .. | exact ringPage_acts .. | split | dsimp only

theorem execStopAreaWrite_acts (part : Nat) (s : State) : Acts s (execStopAreaWrite part s) := by
  unfold execStopAreaWrite
  repeat' first | exact acts_act .. | exact acts_runM .. | exact fireM_acts .. | exact serve_acts .. | exact ringPage_acts .. | split | dsimp only

theorem execPreemptGraceExpiry_acts (part : Nat) (s : State) : Acts s (execPreemptGraceExpiry part s) := by
  unfold execPreemptGraceExpiry
  repeat' first | exact acts_act .. | exact acts_runM .. | exact fireM_acts .. | exact serve_acts .. | exact ringPage_acts .. | split | dsimp only

theorem execPreemptAbortExpiry_acts (part : Nat) (s : State) : Acts s (execPreemptAbortExpiry part s) := by
  unfold execPreemptAbortExpiry
  repeat' first | exact acts_act .. | exact acts_runM .. | exact fireM_acts .. | exact serve_acts .. | exact ringPage_acts .. | split | dsimp only

theorem execSaveRecordWrite_acts (part : Nat) (s : State) : Acts s (execSaveRecordWrite part s) := by
  unfold execSaveRecordWrite
  repeat' first | exact acts_act .. | exact acts_runM .. | exact fireM_acts .. | exact serve_acts .. | exact ringPage_acts .. | split | dsimp only

theorem execSaveHeaderWrite_acts (part : Nat) (s : State) : Acts s (execSaveHeaderWrite part s) := by
  unfold execSaveHeaderWrite
  repeat' first | exact acts_act .. | exact acts_runM .. | exact fireM_acts .. | exact serve_acts .. | exact ringPage_acts .. | split | dsimp only

theorem execContainment_acts (umbra : Nat) (s : State) : Acts s (execContainment umbra s) := by
  unfold execContainment
  repeat' first | exact acts_act .. | exact acts_runM .. | exact fireM_acts .. | exact serve_acts .. | exact ringPage_acts .. | split | dsimp only

theorem execUmbraFence_acts (umbra : Nat) (s : State) : Acts s (execUmbraFence umbra s) := by
  unfold execUmbraFence
  repeat' first | exact acts_act .. | exact acts_runM .. | exact fireM_acts .. | exact serve_acts .. | exact ringPage_acts .. | split | dsimp only

theorem execUmbraReset_acts (umbra : Nat) (s : State) : Acts s (execUmbraReset umbra s) := by
  unfold execUmbraReset
  repeat' first | exact acts_act .. | exact acts_runM .. | exact fireM_acts .. | exact serve_acts .. | exact ringPage_acts .. | split | dsimp only

theorem execContainmentNotice_acts (umbra : Nat) (s : State) : Acts s (execContainmentNotice umbra s) := by
  unfold execContainmentNotice
  repeat' first | exact acts_act .. | exact acts_runM .. | exact fireM_acts .. | exact serve_acts .. | exact ringPage_acts .. | split | dsimp only

theorem execNackReceived_acts (core ctx : Nat) (s : State) : Acts s (execNackReceived core ctx s) := by
  unfold execNackReceived
  repeat' first | exact acts_act .. | exact acts_runM .. | exact fireM_acts .. | exact serve_acts .. | exact ringPage_acts .. | split | dsimp only

theorem execDoorbell_acts (port queue : Nat) (value : Word) (s : State) : Acts s (execDoorbell port queue value s) := by
  unfold execDoorbell
  repeat' first | exact acts_act .. | exact acts_runM .. | exact fireM_acts .. | exact serve_acts .. | exact ringPage_acts .. | split | dsimp only

theorem execPeerDoorbell_acts (link queue : Nat) (value : Word) (s : State) : Acts s (execPeerDoorbell link queue value s) := by
  unfold execPeerDoorbell
  repeat' first | exact acts_act .. | exact acts_runM .. | exact fireM_acts .. | exact serve_acts .. | exact ringPage_acts .. | split | dsimp only

theorem execPeerWrite_acts (link : Nat) (ia : BitVec 48) (data : List Byte) (s : State) : Acts s (execPeerWrite link
    ia data s) := by
  unfold execPeerWrite
  repeat' first | exact acts_act .. | exact acts_runM .. | exact fireM_acts .. | exact serve_acts .. | exact ringPage_acts .. | split | dsimp only

theorem execLaunchEntry_acts (queue : Nat) (s : State) : Acts s (execLaunchEntry queue s) := by
  unfold execLaunchEntry
  repeat' first | exact acts_act .. | exact acts_runM .. | exact fireM_acts .. | exact serve_acts .. | exact ringPage_acts .. | split | dsimp only

theorem execLaunchCompletion_acts (launch : Nat) (s : State) : Acts s (execLaunchCompletion launch s) := by
  unfold execLaunchCompletion
  repeat' first | exact acts_act .. | exact acts_runM .. | exact fireM_acts .. | exact serve_acts .. | exact ringPage_acts .. | split | dsimp only

theorem execMsixUnmask_acts (port vec : Nat) (s : State) : Acts s (execMsixUnmask port vec s) := by
  unfold execMsixUnmask
  repeat' first | exact acts_act .. | exact acts_runM .. | exact fireM_acts .. | exact serve_acts .. | exact ringPage_acts .. | split | dsimp only

theorem execStatRead_acts (port : Nat) (s : State) : Acts s (execStatRead port s) := by
  unfold execStatRead
  repeat' first | exact acts_act .. | exact acts_runM .. | exact fireM_acts .. | exact serve_acts .. | exact ringPage_acts .. | split | dsimp only

theorem execEventRead_acts (port : Nat) (s : State) : Acts s (execEventRead port s) := by
  unfold execEventRead
  repeat' first | exact acts_act .. | exact acts_runM .. | exact fireM_acts .. | exact serve_acts .. | exact ringPage_acts .. | split | dsimp only

theorem execMailboxWrite_acts (port off : Nat) (value : Word) (s : State) : Acts s (execMailboxWrite port off value s) := by
  unfold execMailboxWrite
  repeat' first | exact acts_act .. | exact acts_runM .. | exact fireM_acts .. | exact serve_acts .. | exact ringPage_acts .. | split | dsimp only

theorem execCreatePartition_acts (path : ReqPath) (s : State) : Acts s (execCreatePartition path s) := serve_acts ..

theorem execDestroyPartition_acts (path : ReqPath) (s : State) : Acts s (execDestroyPartition path s) := serve_acts ..

theorem execSetQueue_acts (path : ReqPath) (s : State) : Acts s (execSetQueue path s) := serve_acts ..

theorem execPreemptPartition_acts (path : ReqPath) (s : State) : Acts s (execPreemptPartition path s) := serve_acts ..

theorem execResumePartition_acts (path : ReqPath) (s : State) : Acts s (execResumePartition path s) := serve_acts ..

theorem execSetTimeSlotTables_acts (path : ReqPath) (s : State) : Acts s (execSetTimeSlotTables path s) := serve_acts ..

theorem execSetUmbrae_acts (path : ReqPath) (s : State) : Acts s (execSetUmbrae path s) := serve_acts ..

theorem execTerminateTask_acts (path : ReqPath) (s : State) : Acts s (execTerminateTask path s) := serve_acts ..

theorem execReadStartRecord_acts (path : ReqPath) (s : State) : Acts s (execReadStartRecord path s) := serve_acts ..

theorem execAttestationReport_acts (path : ReqPath) (s : State) : Acts s (execAttestationReport path s) := serve_acts ..

theorem execRaiseEclipseLine_acts (path : ReqPath) (s : State) : Acts s (execRaiseEclipseLine path s) := serve_acts ..

theorem execReleaseEclipseLine_acts (path : ReqPath) (s : State) : Acts s (execReleaseEclipseLine path s) := serve_acts ..

theorem execAttach_acts (path : ReqPath) (s : State) : Acts s (execAttach path s) := setAttached_acts ..

theorem execDetach_acts (path : ReqPath) (s : State) : Acts s (execDetach path s) := setAttached_acts ..

theorem execSetBreakpoint_acts (path : ReqPath) (s : State) : Acts s (execSetBreakpoint path s) := serve_acts ..

theorem execReleaseContext_acts (path : ReqPath) (s : State) : Acts s (execReleaseContext path s) := serve_acts ..

theorem execReleasePartition_acts (path : ReqPath) (s : State) : Acts s (execReleasePartition path s) := serve_acts ..

theorem execReadContext_acts (path : ReqPath) (s : State) : Acts s (execReadContext path s) := serve_acts ..

theorem execWriteContext_acts (path : ReqPath) (s : State) : Acts s (execWriteContext path s) := serve_acts ..

theorem execReadJobQueue_acts (path : ReqPath) (s : State) : Acts s (execReadJobQueue path s) := readUnit_acts ..

theorem execReadWakeTable_acts (path : ReqPath) (s : State) : Acts s (execReadWakeTable path s) := readUnit_acts ..

theorem execReadCopyTrace_acts (path : ReqPath) (s : State) : Acts s (execReadCopyTrace path s) := readUnit_acts ..

theorem execTimeSlotFrame_acts (s : State) : Acts s (execTimeSlotFrame s) := by
  unfold execTimeSlotFrame
  repeat' first | exact acts_act .. | exact acts_runM .. | exact fireM_acts .. | exact serve_acts .. | exact ringPage_acts .. | split | dsimp only

theorem execModuleStart_acts (outcomes : List StepRun) (s : State) : Acts s (execModuleStart outcomes s) := by
  unfold execModuleStart
  repeat' first | exact acts_act .. | exact acts_runM .. | exact fireM_acts .. | exact serve_acts .. | exact ringPage_acts .. | split | dsimp only

theorem execDieAbove95_acts (die : Nat) (s : State) : Acts s (execDieAbove95 die s) := by
  unfold execDieAbove95
  repeat' first | exact acts_act .. | exact acts_runM .. | exact fireM_acts .. | exact serve_acts .. | exact ringPage_acts .. | split | dsimp only

theorem execDieBackAt90_acts (s : State) : Acts s (execDieBackAt90 s) := by
  unfold execDieBackAt90
  repeat' first | exact acts_act .. | exact acts_runM .. | exact fireM_acts .. | exact serve_acts .. | exact ringPage_acts .. | split | dsimp only

theorem execDieAbove105_acts (die : Nat) (s : State) : Acts s (execDieAbove105 die s) := by
  unfold execDieAbove105
  repeat' first | exact acts_act .. | exact acts_runM .. | exact fireM_acts .. | exact serve_acts .. | exact ringPage_acts .. | split | dsimp only

theorem execOvertempPowerRemoval_acts (s : State) : Acts s (execOvertempPowerRemoval s) := by
  unfold execOvertempPowerRemoval
  repeat' first | exact acts_act .. | exact acts_runM .. | exact fireM_acts .. | exact serve_acts .. | exact ringPage_acts .. | split | dsimp only

theorem execClock_acts (s : State) : Acts s (execClock s) := by
  unfold execClock
  repeat' first | exact acts_act .. | exact acts_runM .. | exact fireM_acts .. | exact serve_acts .. | exact ringPage_acts .. | split | dsimp only

theorem execUnknownOperation_acts (path : ReqPath) (op : BitVec 8) (s : State) : Acts s (execUnknownOperation path op s) := by
  unfold execUnknownOperation
  repeat' first | exact acts_act .. | exact acts_runM .. | exact fireM_acts .. | exact serve_acts .. | exact ringPage_acts .. | split | dsimp only

/-- Whatever runs, the outcome is reached by primitive changes. -/
theorem exec_acts (i : Instr) (s : State) : Acts s (exec i s) := by
  cases i with
  | add => exact execAdd_acts ..
  | sub => exact execSub_acts ..
  | mul => exact execMul_acts ..
  | mulh => exact execMulh_acts ..
  | mulhu => exact execMulhu_acts ..
  | div => exact execDiv_acts ..
  | divu => exact execDivu_acts ..
  | rem => exact execRem_acts ..
  | remu => exact execRemu_acts ..
  | min => exact execMin_acts ..
  | max => exact execMax_acts ..
  | minu => exact execMinu_acts ..
  | maxu => exact execMaxu_acts ..
  | neg => exact execNeg_acts ..
  | abs => exact execAbs_acts ..
  | addi => exact execAddi_acts ..
  | muli => exact execMuli_acts ..
  | andi => exact execAndi_acts ..
  | ori => exact execOri_acts ..
  | xori => exact execXori_acts ..
  | shli => exact execShli_acts ..
  | shri => exact execShri_acts ..
  | sari => exact execSari_acts ..
  | ceqi => exact execCeqi_acts ..
  | cnei => exact execCnei_acts ..
  | clti => exact execClti_acts ..
  | clei => exact execClei_acts ..
  | cltui => exact execCltui_acts ..
  | cleui => exact execCleui_acts ..
  | lea => exact execLea_acts ..
  | and => exact execAnd_acts ..
  | or => exact execOr_acts ..
  | xor => exact execXor_acts ..
  | not => exact execNot_acts ..
  | shl => exact execShl_acts ..
  | shr => exact execShr_acts ..
  | sar => exact execSar_acts ..
  | rot => exact execRot_acts ..
  | clz => exact execClz_acts ..
  | ctz => exact execCtz_acts ..
  | popc => exact execPopc_acts ..
  | bfx => exact execBfx_acts ..
  | bfi => exact execBfi_acts ..
  | sext => exact execSext_acts ..
  | zext => exact execZext_acts ..
  | ceq => exact execCeq_acts ..
  | cne => exact execCne_acts ..
  | clt => exact execClt_acts ..
  | cle => exact execCle_acts ..
  | cltu => exact execCltu_acts ..
  | cleu => exact execCleu_acts ..
  | pand => exact execPand_acts ..
  | por => exact execPor_acts ..
  | pxor => exact execPxor_acts ..
  | pnot => exact execPnot_acts ..
  | ppack => exact execPpack_acts ..
  | pbit => exact execPbit_acts ..
  | sel => exact execSel_acts ..
  | isnull => exact execIsnull_acts ..
  | mov => exact execMov_acts ..
  | movi => exact execMovi_acts ..
  | movhi => exact execMovhi_acts ..
  | null => exact execNull_acts ..
  | get => exact execGet_acts ..
  | mfc => exact execMfc_acts ..
  | mtc => exact execMtc_acts ..
  | gtid => exact execGtid_acts ..
  | core => exact execCore_acts ..
  | clk => exact execClk_acts ..
  | sigchk => exact execSigchk_acts ..
  | fadd => exact execFadd_acts ..
  | fsub => exact execFsub_acts ..
  | fmul => exact execFmul_acts ..
  | fdiv => exact execFdiv_acts ..
  | fsqrt => exact execFsqrt_acts ..
  | fma => exact execFma_acts ..
  | fmin => exact execFmin_acts ..
  | fmax => exact execFmax_acts ..
  | fneg => exact execFneg_acts ..
  | fabs => exact execFabs_acts ..
  | fceq => exact execFceq_acts ..
  | fclt => exact execFclt_acts ..
  | fcle => exact execFcle_acts ..
  | fcun => exact execFcun_acts ..
  | cvt => exact execCvt_acts ..
  | bra => exact execBra_acts ..
  | jmp => exact execJmp_acts ..
  | call => exact execCall_acts ..
  | ret => exact execRet_acts ..
  | tend => exact execTend_acts ..
  | trap => exact execTrap_acts ..
  | mig => exact execMig_acts ..
  | fork => exact execFork_acts ..
  | join => exact execJoin_acts ..
  | jwait => exact execJwait_acts ..
  | pause => exact execPause_acts ..
  | rngopen => exact execRngopen_acts ..
  | rngdraw => exact execRngdraw_acts ..
  | rngclose => exact execRngclose_acts ..
  | vadd => exact execVadd_acts ..
  | vsub => exact execVsub_acts ..
  | vmul => exact execVmul_acts ..
  | vfma => exact execVfma_acts ..
  | vmin => exact execVmin_acts ..
  | vmax => exact execVmax_acts ..
  | vabs => exact execVabs_acts ..
  | vneg => exact execVneg_acts ..
  | vdiv => exact execVdiv_acts ..
  | vsqrt => exact execVsqrt_acts ..
  | vcmp => exact execVcmp_acts ..
  | vsel => exact execVsel_acts ..
  | vmask => exact execVmask_acts ..
  | vtmul => exact execVtmul_acts ..
  | vtadd => exact execVtadd_acts ..
  | vcvt => exact execVcvt_acts ..
  | vscale => exact execVscale_acts ..
  | vdot => exact execVdot_acts ..
  | vred => exact execVred_acts ..
  | vperm => exact execVperm_acts ..
  | vbcast => exact execVbcast_acts ..
  | vext => exact execVext_acts ..
  | vins => exact execVins_acts ..
  | vtag => exact execVtag_acts ..
  | ldb => exact execLdb_acts ..
  | ldh => exact execLdh_acts ..
  | ldw => exact execLdw_acts ..
  | ldd => exact execLdd_acts ..
  | ldbu => exact execLdbu_acts ..
  | ldhu => exact execLdhu_acts ..
  | ldwu => exact execLdwu_acts ..
  | stb => exact execStb_acts ..
  | sth => exact execSth_acts ..
  | stw => exact execStw_acts ..
  | std => exact execStd_acts ..
  | vld => exact execVld_acts ..
  | vst => exact execVst_acts ..
  | vldg => exact execVldg_acts ..
  | vsts => exact execVsts_acts ..
  | ldf => exact execLdf_acts ..
  | lde => exact execLde_acts ..
  | stf => exact execStf_acts ..
  | sts => exact execSts_acts ..
  | feset => exact execFeset_acts ..
  | feclr => exact execFeclr_acts ..
  | feget => exact execFeget_acts ..
  | fence => exact execFence_acts ..
  | aadd => exact execAadd_acts ..
  | amin => exact execAmin_acts ..
  | amax => exact execAmax_acts ..
  | aminu => exact execAminu_acts ..
  | amaxu => exact execAmaxu_acts ..
  | aand => exact execAand_acts ..
  | aor => exact execAor_acts ..
  | axor => exact execAxor_acts ..
  | axch => exact execAxch_acts ..
  | acas => exact execAcas_acts ..
  | afadd => exact execAfadd_acts ..
  | pfill => exact execPfill_acts ..
  | pgstat => exact execPgstat_acts ..
  | tlbinv => exact execTlbinv_acts ..
  | hwait => exact execHwait_acts ..
  | htest => exact execHtest_acts ..
  | hcancel => exact execHcancel_acts ..
  | cpy => exact execCpy_acts ..
  | cpyx => exact execCpyx_acts ..
  | cpys => exact execCpys_acts ..
  | tmul => exact execTmul_acts ..
  | tmv => exact execTmv_acts ..
  | tadd => exact execTadd_acts ..
  | tasm => exact execTasm_acts ..
  | ttype => exact execTtype_acts ..
  | tfree => exact execTfree_acts ..
  | tcopy => exact execTcopy_acts ..
  | ttrans => exact execTtrans_acts ..
  | tsolve => exact execTsolve_acts ..
  | tchol => exact execTchol_acts ..
  | tresume => exact execTresume_acts ..
  | dvar => exact execDvar_acts ..
  | dapp => exact execDapp_acts ..
  | dnot => exact execDnot_acts ..
  | dite => exact execDite_acts ..
  | dres => exact execDres_acts ..
  | dexq => exact execDexq_acts ..
  | dcnt => exact execDcnt_acts ..
  | dref => exact execDref_acts ..
  | dunref => exact execDunref_acts ..
  | dgc => exact execDgc_acts ..
  | dsize => exact execDsize_acts ..
  | dresume => exact execDresume_acts ..
  | rsinit => exact execRsinit_acts ..
  | rsbegin => exact execRsbegin_acts ..
  | rsnext => exact execRsnext_acts ..
  | rsread => exact execRsread_acts ..
  | rsput => exact execRsput_acts ..
  | rsstat => exact execRsstat_acts ..
  | rfe => exact execRfe_acts ..
  | bkpt => exact execBkpt_acts ..
  | halt => exact execHalt_acts ..
  | blockFetch => exact execBlockFetch_acts ..
  | codeCacheFill => exact execCodeCacheFill_acts ..
  | resultDelivery => exact execResultDelivery_acts ..
  | blockCommit => exact execBlockCommit_acts ..
  | trapEntry => exact execTrapEntry_acts ..
  | taskTerminate => exact execTaskTerminate_acts ..
  | taskEnd => exact execTaskEnd_acts ..
  | waitRetry => exact execWaitRetry_acts ..
  | spinExpiry => exact execSpinExpiry_acts ..
  | parkAttempt => exact execParkAttempt_acts ..
  | parkWriteout => exact execParkWriteout_acts ..
  | parkSlotRetryExpiry => exact execParkSlotRetryExpiry_acts ..
  | wakeDelivery => exact execWakeDelivery_acts ..
  | wlimitExpiry => exact execWlimitExpiry_acts ..
  | waitCancel => exact execWaitCancel_acts ..
  | findWork => exact execFindWork_acts ..
  | stealAttempt => exact execStealAttempt_acts ..
  | stealBackoffExpiry => exact execStealBackoffExpiry_acts ..
  | rootPlacement => exact execRootPlacement_acts ..
  | migrationArrival => exact execMigrationArrival_acts ..
  | migrationNack => exact execMigrationNack_acts ..
  | migrationRetryExpiry => exact execMigrationRetryExpiry_acts ..
  | replyArrival => exact execReplyArrival_acts ..
  | pauseExpiry => exact execPauseExpiry_acts ..
  | poolScrub => exact execPoolScrub_acts ..
  | sendNonRelaxed => exact execSendNonRelaxed_acts ..
  | sendRelaxed => exact execSendRelaxed_acts ..
  | arrive => exact execArrive_acts ..
  | perform => exact execPerform_acts ..
  | replay => exact execReplay_acts ..
  | acknowledge => exact execAcknowledge_acts ..
  | faultRecordPost => exact execFaultRecordPost_acts ..
  | faultPostRetryExpiry => exact execFaultPostRetryExpiry_acts ..
  | engineJobResolve => exact execEngineJobResolve_acts ..
  | mapExecutable => exact execMapExecutable_acts ..
  | withdrawExecutable => exact execWithdrawExecutable_acts ..
  | pfillRelaxedWalk => exact execPfillRelaxedWalk_acts ..
  | queueReservationExpiry => exact execQueueReservationExpiry_acts ..
  | tmeStep => exact execTmeStep_acts ..
  | ddeStep => exact execDdeStep_acts ..
  | copyFrame => exact execCopyFrame_acts ..
  | cpyxChunk => exact execCpyxChunk_acts ..
  | cpyxFinish => exact execCpyxFinish_acts ..
  | eclipseRaise => exact execEclipseRaise_acts ..
  | stopAreaWrite => exact execStopAreaWrite_acts ..
  | preemptGraceExpiry => exact execPreemptGraceExpiry_acts ..
  | preemptAbortExpiry => exact execPreemptAbortExpiry_acts ..
  | saveRecordWrite => exact execSaveRecordWrite_acts ..
  | saveHeaderWrite => exact execSaveHeaderWrite_acts ..
  | containment => exact execContainment_acts ..
  | umbraFence => exact execUmbraFence_acts ..
  | umbraReset => exact execUmbraReset_acts ..
  | containmentNotice => exact execContainmentNotice_acts ..
  | nackReceived => exact execNackReceived_acts ..
  | doorbell => exact execDoorbell_acts ..
  | peerDoorbell => exact execPeerDoorbell_acts ..
  | peerWrite => exact execPeerWrite_acts ..
  | launchEntry => exact execLaunchEntry_acts ..
  | launchCompletion => exact execLaunchCompletion_acts ..
  | msixUnmask => exact execMsixUnmask_acts ..
  | statRead => exact execStatRead_acts ..
  | eventRead => exact execEventRead_acts ..
  | mailboxWrite => exact execMailboxWrite_acts ..
  | createPartition => exact execCreatePartition_acts ..
  | destroyPartition => exact execDestroyPartition_acts ..
  | setQueue => exact execSetQueue_acts ..
  | preemptPartition => exact execPreemptPartition_acts ..
  | resumePartition => exact execResumePartition_acts ..
  | setTimeSlotTables => exact execSetTimeSlotTables_acts ..
  | setUmbrae => exact execSetUmbrae_acts ..
  | terminateTask => exact execTerminateTask_acts ..
  | readStartRecord => exact execReadStartRecord_acts ..
  | attestationReport => exact execAttestationReport_acts ..
  | raiseEclipseLine => exact execRaiseEclipseLine_acts ..
  | releaseEclipseLine => exact execReleaseEclipseLine_acts ..
  | attach => exact execAttach_acts ..
  | detach => exact execDetach_acts ..
  | setBreakpoint => exact execSetBreakpoint_acts ..
  | releaseContext => exact execReleaseContext_acts ..
  | releasePartition => exact execReleasePartition_acts ..
  | readContext => exact execReadContext_acts ..
  | writeContext => exact execWriteContext_acts ..
  | readJobQueue => exact execReadJobQueue_acts ..
  | readWakeTable => exact execReadWakeTable_acts ..
  | readCopyTrace => exact execReadCopyTrace_acts ..
  | timeSlotFrame => exact execTimeSlotFrame_acts ..
  | moduleStart => exact execModuleStart_acts ..
  | dieAbove95 => exact execDieAbove95_acts ..
  | dieBackAt90 => exact execDieBackAt90_acts ..
  | dieAbove105 => exact execDieAbove105_acts ..
  | overtempPowerRemoval => exact execOvertempPowerRemoval_acts ..
  | clock => exact execClock_acts ..
  | unknownOperation => exact execUnknownOperation_acts ..

end Sys2Proof.Machine
end

