-- ==== Sys2Proof/Laws/Engine.lean ====
section
/-! SUPPORT. What the engines' shared operations can do: the order of a list of requests, what sending requests changes, and
the words a job has read. -/

namespace Sys2Proof.Machine

/-- Drawing free values moves their counter and nothing else. -/
def Drew (r r' : Run) : Prop := ∃ n, r.s.freeCtr ≤ n ∧ r'.s = { r.s with freeCtr := n }

theorem Drew.refl (r : Run) : Drew r r := ⟨_, Nat.le_refl _, rfl⟩

theorem Drew.trans {a b c : Run} (h : Drew a b) (g : Drew b c) : Drew a c := by
  obtain ⟨n, hn, hb⟩ := h
  obtain ⟨m, hm, hc⟩ := g
  rw [hb] at hm hc
  exact ⟨m, Nat.le_trans hn hm, hc⟩

theorem freeBytes_drew (n : Nat) (r : Run) : Drew r ((freeBytes n).run r).2 := ⟨_, Nat.le_add_right _ _, rfl⟩

/-- The order that free values pick is an order of the same things. -/
theorem shuffled_spec {α : Type} (l : List α) (r : Run) :
    ((shuffled l).run r).1.Perm l ∧ Drew r ((shuffled l).run r).2 := by
  induction l with
  | nil => exact ⟨.nil, .refl r⟩
  | cons x t ih =>
    refine ⟨List.perm_middle.trans (.cons x ?_), ih.2.trans (freeBytes_drew 2 _)⟩
    rw [List.take_append_drop]
    exact ih.1

/-- The net with these requests at the end of their engines' channels, under numbers of their own. -/
def Net.sent (n : Net) (cl : Nat) (l : List Req) : Net :=
  { n with
    channels := n.channels ++ l.zipIdx.map fun x =>
      (.engine cl ((x.1.eng.map (·.engine)).getD 0), x.1.acc.home, { x.1 with acc := { x.1.acc with blk := n.serial + x.2 } })
    serial := n.serial + l.length }

/-- Sending requests puts each of them once at the end of its channel, in some order, and changes nothing else but the counter
of free values. -/
theorem sendReqs_spec (cl : Nat) (rs : List Req) (r : Run) : ((sendReqs cl rs).run r).1 = rs.length ∧
    ∃ (l : List Req) (n : Nat), l.Perm rs ∧ r.s.freeCtr ≤ n ∧
      ((sendReqs cl rs).run r).2.s = { r.s with freeCtr := n, net := r.s.net.sent cl l } := by
  obtain ⟨p, n, hn, e⟩ := shuffled_spec rs r
  refine ⟨p.length_eq, _, n, p, hn, ?_⟩
  change { ((shuffled rs).run r).2.s with net := ((shuffled rs).run r).2.s.net.sent cl ((shuffled rs).run r).1 } = _
  rw [e]

end Sys2Proof.Machine
end

