-- ==== Sys2Proof/Laws/Steps.lean ====
section
/-! SUPPORT. A step as primitive changes: what each turn may do, and the one induction through which an invariant is shown
of every step. -/

namespace Sys2Proof.Machine

theorem Acts.isNext {s : State} {o : Host.Outcome State Fault Refusal} (h : Acts s o) : ∃ t, o = .next t := by
  obtain ⟨es, rfl⟩ := h; exact ⟨_, rfl⟩

/-- Device steps that make primitive changes only. -/
def AllActs (l : List DeviceStep) : Prop := ∀ f ∈ l, ∀ s, Acts s (f s)

theorem allActs_nil : AllActs [] := by simp [AllActs]

theorem allActs_cons {f : DeviceStep} {l : List DeviceStep} (hf : ∀ s, Acts s (f s)) (hl : AllActs l) : AllActs (f :: l) := by
  intro g hg
  rcases List.mem_cons.1 hg with rfl | h
  · exact hf
  · exact hl g h

theorem allActs_append {l m : List DeviceStep} (hl : AllActs l) (hm : AllActs m) : AllActs (l ++ m) := by
  intro g hg
  rcases List.mem_append.1 hg with h | h
  · exact hl g h
  · exact hm g h

theorem allActs_map {α : Type} (l : List α) {g : α → DeviceStep} (h : ∀ x s, Acts s (g x s)) : AllActs (l.map g) := by
  intro f hf
  obtain ⟨x, -, rfl⟩ := List.mem_map.1 hf
  exact h x

theorem allActs_flatMap {α : Type} (l : List α) {g : α → List DeviceStep} (h : ∀ x, AllActs (g x)) :
    AllActs (l.flatMap g) := by
  intro f hf
  obtain ⟨x, -, hx⟩ := List.mem_flatMap.1 hf
  exact h x f hx

theorem allActs_ite {c : Bool} {l m : List DeviceStep} (hl : AllActs l) (hm : AllActs m) :
    AllActs (if c then l else m) := by
  cases c <;> assumption

theorem ctxSteps_acts (k c : Nat) : AllActs (ctxSteps k c) :=
  allActs_cons (execResultDelivery_acts k c) <| allActs_cons (execPauseExpiry_acts k c) <|
  allActs_cons (execTrapEntry_acts k c) <| allActs_cons (execBlockCommit_acts k c) <|
  allActs_cons (execTaskTerminate_acts k c) <| allActs_cons (execTaskEnd_acts k c) <|
  allActs_cons (execPfillRelaxedWalk_acts k c) <| allActs_cons (execSendNonRelaxed_acts k c) <|
  allActs_cons (execSendRelaxed_acts k c 0) <| allActs_cons (execSpinExpiry_acts k c) <|
  allActs_cons (execParkAttempt_acts k c) <| allActs_cons (execParkSlotRetryExpiry_acts k c) <|
  allActs_cons (execParkWriteout_acts k c) <| allActs_cons (execMigrationRetryExpiry_acts k c) <|
  allActs_cons (execFaultPostRetryExpiry_acts k c) <| allActs_cons (execWaitRetry_acts k c) <|
  allActs_cons (execCodeCacheFill_acts k c) <| allActs_cons (execBlockFetch_acts k c) allActs_nil

theorem netSteps_acts (n : Net) : AllActs (netSteps n) :=
  allActs_append (allActs_append (allActs_append (allActs_append (allActs_append (allActs_append (allActs_append
    (allActs_append
      (allActs_map _ fun r => execReplyArrival_acts r.core r.ctx) (allActs_map _ fun r => execAcknowledge_acts r.core r.ctx))
      (allActs_map _ fun x => execPerform_acts x.1)) (allActs_map _ fun x => execArrive_acts x.1 x.2.1))
      (allActs_map _ fun x => execNackReceived_acts x.1 x.2.1)) (allActs_map _ fun w => execWakeDelivery_acts w.core))
      (allActs_map _ fun x => execWaitCancel_acts x.home)) (allActs_map _ fun x => execMigrationArrival_acts x.1))
      (allActs_map _ fun x => execMigrationNack_acts x.1 x.2.1)

theorem clusterSteps_acts (cl : Nat) (c : Cluster) : AllActs (clusterSteps cl c) :=
  allActs_append (allActs_append (allActs_append
    (allActs_cons (execFaultRecordPost_acts cl) <| allActs_cons (execTmeStep_acts cl) <|
     allActs_cons (execDdeStep_acts cl) <| allActs_cons (execCopyFrame_acts cl) <|
     allActs_cons (execCpyxFinish_acts cl) <| allActs_cons (execMapExecutable_acts cl) <|
     allActs_cons (execWithdrawExecutable_acts cl) allActs_nil)
    (allActs_map _ fun n => execCpyxChunk_acts cl n)) (allActs_map _ fun n => execReplay_acts cl n))
    (allActs_flatMap _ fun x => allActs_cons (execEngineJobResolve_acts cl x.1) <|
      allActs_cons (execQueueReservationExpiry_acts cl x.1) allActs_nil)

theorem coreSteps_acts (k : Nat) (c : Core) : AllActs (coreSteps k c) :=
  allActs_append (allActs_ite allActs_nil (allActs_map _ fun i => execFindWork_acts k i))
    (allActs_map _ fun x => execWlimitExpiry_acts k x.1)

theorem stealSteps_acts (s : State) : AllActs (stealSteps s) :=
  allActs_ite (allActs_flatMap _ fun x => allActs_flatMap _ fun i =>
    allActs_cons (execStealBackoffExpiry_acts x.1 i) <| allActs_cons (execStealAttempt_acts x.1 i) allActs_nil) allActs_nil

theorem partSteps_acts (p : Nat) (x : Partition) : AllActs (partSteps p x) :=
  allActs_append (allActs_map _ fun r => execEclipseRaise_acts p r.1) <|
    allActs_cons (execStopAreaWrite_acts p) <| allActs_cons (execPreemptGraceExpiry_acts p) <|
    allActs_cons (execPreemptAbortExpiry_acts p) <| allActs_cons (execSaveRecordWrite_acts p) <|
    allActs_cons (execSaveHeaderWrite_acts p) allActs_nil

theorem mgmtSteps_acts (p : ReqPath) (op : BitVec 8) : AllActs (mgmtSteps p op) :=
  allActs_cons (execCreatePartition_acts p) <| allActs_cons (execDestroyPartition_acts p) <|
  allActs_cons (execSetQueue_acts p) <| allActs_cons (execPreemptPartition_acts p) <|
  allActs_cons (execResumePartition_acts p) <| allActs_cons (execSetTimeSlotTables_acts p) <|
  allActs_cons (execSetUmbrae_acts p) <| allActs_cons (execTerminateTask_acts p) <|
  allActs_cons (execReadStartRecord_acts p) <| allActs_cons (execAttestationReport_acts p) <|
  allActs_cons (execRaiseEclipseLine_acts p) <| allActs_cons (execReleaseEclipseLine_acts p) <|
  allActs_cons (execAttach_acts p) <| allActs_cons (execDetach_acts p) <| allActs_cons (execSetBreakpoint_acts p) <|
  allActs_cons (execReleaseContext_acts p) <| allActs_cons (execReleasePartition_acts p) <|
  allActs_cons (execReadContext_acts p) <| allActs_cons (execWriteContext_acts p) <|
  allActs_cons (execReadJobQueue_acts p) <| allActs_cons (execReadWakeTable_acts p) <|
  allActs_cons (execReadCopyTrace_acts p) <| allActs_cons (execUnknownOperation_acts p op) allActs_nil

theorem deviceSteps_acts (s : State) : AllActs (deviceSteps s) := by
  refine allActs_append (allActs_append (allActs_append (allActs_append (allActs_append (allActs_append (allActs_append
    (allActs_append (allActs_append (allActs_append ?_ (netSteps_acts _)) ?_) ?_) (stealSteps_acts s)) ?_) ?_) ?_) ?_) ?_) ?_
  · exact allActs_flatMap _ fun x => allActs_ite allActs_nil (ctxSteps_acts _ _)
  · exact allActs_flatMap _ fun x => clusterSteps_acts _ _
  · exact allActs_flatMap _ fun x => coreSteps_acts _ _
  · exact allActs_flatMap _ fun x => partSteps_acts _ _
  · exact allActs_flatMap _ fun u => allActs_ite allActs_nil <| allActs_cons (execContainment_acts _) <|
      allActs_cons (execUmbraFence_acts _) <| allActs_cons (execUmbraReset_acts _) <|
      allActs_cons (execContainmentNotice_acts _) allActs_nil
  · exact allActs_flatMap _ fun x => allActs_cons (execRootPlacement_acts _) <|
      allActs_cons (execLaunchCompletion_acts _) allActs_nil
  · exact allActs_map _ fun x => execLaunchEntry_acts _
  · exact allActs_flatMap _ fun x => mgmtSteps_acts _ _
  · refine allActs_flatMap _ fun x => ?_
    split
    · exact mgmtSteps_acts _ _
    · exact allActs_nil

theorem firstChange_acts (s t : State) (l : List DeviceStep) (hl : AllActs l) (h : firstChange s l = some t) :
    ∃ es, t = applyAll es s := by
  induction l with
  | nil => simp [firstChange] at h
  | cons f l ih =>
    have hl' : AllActs l := fun g hg => hl g (List.mem_cons_of_mem _ hg)
    obtain ⟨es, he⟩ := (hl f List.mem_cons_self s).next
    rw [firstChange, he] at h
    dsimp only at h
    split at h
    · exact ih hl' h
    · exact ⟨es, (Option.some.inj h).symm⟩

/-- What a step is allowed to be: primitive changes, the current form named between them, one turn used. -/
structure Kept (P : State → Prop) : Prop where
  eff : ∀ e s, P s → P (Eff.apply e s)
  cur : ∀ (s : State) (c : Cur), P s → P { s with cur := c }
  sched : ∀ (s : State) (l : List Turn), P s → P { s with sched := l }

theorem Kept.acts {P : State → Prop} (h : Kept P) {s t : State} (ha : Acts s (.next t)) (hs : P s) : P t := by
  obtain ⟨es, he⟩ := ha
  injection he with he
  rw [he]
  exact applyAll_keeps P h.eff es s hs

theorem Kept.runSlot {P : State → Prop} (h : Kept P) {k c : Nat} {s t : State} (e : runSlot k c s = .next t) (hs : P s) :
    P t := by
  unfold Machine.runSlot at e
  split at e
  · dsimp only at e
    split at e
    · exact h.acts (e ▸ exec_acts _ _) (h.cur _ _ (applyAll_keeps P h.eff _ _ hs))
    · injection e with e
      exact e ▸ applyAll_keeps P h.eff _ _ hs
  · injection e with e
    exact e ▸ hs

theorem Kept.defaultStep {P : State → Prop} (h : Kept P) {s t : State} (e : defaultStep s = .next t) (hs : P s) : P t := by
  unfold Machine.defaultStep at e
  split at e
  · exact h.acts (e ▸ execModuleStart_acts _ _) hs
  · split at e
    · rename_i u hu
      injection e with e
      obtain ⟨es, rfl⟩ := firstChange_acts s u _ (deviceSteps_acts s) hu
      exact e ▸ applyAll_keeps P h.eff es s hs
    · split at e
      · exact h.runSlot e hs
      · split at e
        · exact h.acts (e ▸ execTimeSlotFrame_acts _) hs
        · exact h.acts (e ▸ execClock_acts _) hs

/-- A property kept by every primitive change, and blind to the turn and the current form, is kept by every step. -/
theorem Kept.step {P : State → Prop} (h : Kept P) {s t : State} (e : step s = .next t) (hs : P s) : P t := by
  unfold Machine.step at e
  split at e
  · rename_i u l hl
    have hs' := h.sched s l hs
    unfold runTurn at e
    split at e
    · exact h.runSlot e hs'
    · unfold runEvent at e
      split at e
      · exact h.acts (e ▸ exec_acts _ _) hs'
      · injection e with e
        exact e ▸ hs'
  · exact h.defaultStep e hs

end Sys2Proof.Machine
end

