-- ==== Sys2Proof/Laws/Forms.lean ====
section
/-! SUPPORT. The shared operations of the forms, each said once: a form that fires, a form whose guard or operand is null,
a form that is not ready; and how a program of changes runs. -/

namespace Sys2Proof.Machine

/-! ### Firing -/

theorem GuardOpen.passes {gm : Guard} {i : Inst} (h : GuardOpen gm i) : guardPasses gm (i.tok .p) = true := by
  rcases h with rfl | ⟨p, hp, hn, ⟨rfl, hb⟩ | ⟨rfl, hb⟩⟩
  · rfl
  · cases p <;> simp_all [guardPasses, Inst.tok, Inst.slot, Token.isNull]
  · cases p <;> simp_all [guardPasses, Inst.tok, Inst.slot, Token.isNull]

theorem GuardOpen.ready {gm : Guard} {i : Inst} (h : GuardOpen gm i) : (gm == .none || i.p.isSome) = true := by
  rcases h with rfl | ⟨p, hp, -⟩
  · rfl
  · simp [hp]

/-- A form that fires goes (R33, R34). -/
theorem Firing.fires {s : State} {gm : Guard} {slots : List Slot} {i : Inst} (h : Firing s gm slots i) (x : Bool := false) :
    i.fires gm slots x = .go := by
  obtain ⟨-, hi, hg, hs⟩ := h
  have hr : i.ready gm slots = true := by
    simp only [Inst.ready, hi, hg.ready, Bool.not_false, Bool.true_and, List.all_eq_true]
    intro y hy
    obtain ⟨t, ht, -⟩ := hs y hy
    simp [ht]
  have hn : (slots.any fun y => (i.tok y).isNull) = false := by
    rw [List.any_eq_false]
    intro y hy
    obtain ⟨t, ht, hne⟩ := hs y hy
    cases t <;> simp_all [Inst.tok, Token.isNull]
  simp [Inst.fires, hr, hg.passes, hn]

/-- A pure form that fires delivers the value it computes, and that is all it does. -/
theorem pureForm_firing {s : State} {gm : Guard} {slots : List Slot} {i : Inst} (h : Firing s gm slots i)
    (ts : List Target) (lat : Nat) (x : Bool) (v : Inst → Snap → Token) :
    pureForm gm ts slots lat x v s = .next (s.emitted ts (v i s.curCtx.win.snap) lat) := by
  simp only [pureForm, h.1, h.fires x]
  rfl

theorem pureA_firing {s : State} {f : FmtA} {slots : List Slot} {i : Inst} (h : Firing s f.gm slots i) (lat : Nat)
    (v : Inst → Snap → Token) :
    pureA f slots lat v s = .next (s.emitted (targetList f.t) (v i s.curCtx.win.snap) lat) :=
  pureForm_firing h ..

/-- Whatever a pure form does, it changes no more than the window of the current context. -/
theorem pureForm_next (gm : Guard) (ts : List Target) (slots : List Slot) (lat : Nat) (x : Bool)
    (v : Inst → Snap → Token) (s : State) :
    pureForm gm ts slots lat x v s = .next s ∨ ∃ f, pureForm gm ts slots lat x v s = .next (s.withWin f) := by
  unfold pureForm
  dsimp only
  split
  · exact .inl rfl
  · split
    · exact .inl rfl
    · exact .inr ⟨_, rfl⟩
    · exact .inr ⟨_, rfl⟩

/-- A form of the other kind that fires marks the form issued and runs its program. -/
theorem fireM_firing {s : State} {gm : Guard} {slots : List Slot} {i : Inst} (h : Firing s gm slots i)
    (ts : List Target) (irr : Bool) (go : Inst → Window → M Unit) :
    fireM gm ts slots irr go s = runM (do
      modCtx s.cur.core s.cur.ctx fun c => c.onWin fun w => w.issue s.cur.idx
      go i s.curCtx.win) s := by
  simp only [fireM, h.1, h.fires]

/-- A form that is marked issued and then emits has done what a pure form does. -/
theorem runM_issue_emit (s : State) (ts : List Target) (tok : Token) (lat : Nat) :
    runM (do
      modCtx s.cur.core s.cur.ctx fun c => c.onWin fun w => w.issue s.cur.idx
      emitCur ts tok lat) s = .next (s.emitted ts tok lat) := by
  have h : changes (do
      modCtx s.cur.core s.cur.ctx fun c => c.onWin fun w => w.issue s.cur.idx
      emitCur ts tok lat) s =
      [Eff.ctx s.cur.core s.cur.ctx (s.curCtx.onWin fun w => w.issue s.cur.idx),
       Eff.ctx s.cur.core s.cur.ctx
        ((((Eff.ctx s.cur.core s.cur.ctx (s.curCtx.onWin fun w => w.issue s.cur.idx)).apply s).ctx s.cur.core s.cur.ctx).onWin
          fun w => w.emit s.cur.idx ts tok (s.clk.toNat + 16 * lat))] := rfl
  rw [runM, h]
  simp only [act, applyAll_cons, applyAll_nil, Eff.ctx_ctx, State.ctx_apply_same]
  rfl

/-! ### The state after a change of the current window -/

@[simp] theorem State.withWin_ctxs (s : State) (f : Window → Window) :
    (s.withWin f).ctxs = sset (ctxKey s.cur.core s.cur.ctx) (s.curCtx.onWin f) s.ctxs := rfl
@[simp] theorem State.withWin_mem (s : State) (f : Window → Window) : (s.withWin f).mem = s.mem := rfl
@[simp] theorem State.withWin_sync (s : State) (f : Window → Window) : (s.withWin f).sync = s.sync := rfl
@[simp] theorem State.withWin_cores (s : State) (f : Window → Window) : (s.withWin f).cores = s.cores := rfl
@[simp] theorem State.withWin_clusters (s : State) (f : Window → Window) : (s.withWin f).clusters = s.clusters := rfl
@[simp] theorem State.withWin_parts (s : State) (f : Window → Window) : (s.withWin f).parts = s.parts := rfl
@[simp] theorem State.withWin_launches (s : State) (f : Window → Window) : (s.withWin f).launches = s.launches := rfl
@[simp] theorem State.withWin_net (s : State) (f : Window → Window) : (s.withWin f).net = s.net := rfl
@[simp] theorem State.withWin_mgmt (s : State) (f : Window → Window) : (s.withWin f).mgmt = s.mgmt := rfl
@[simp] theorem State.withWin_clk (s : State) (f : Window → Window) : (s.withWin f).clk = s.clk := rfl
@[simp] theorem State.withWin_cur (s : State) (f : Window → Window) : (s.withWin f).cur = s.cur := rfl
@[simp] theorem State.withWin_sched (s : State) (f : Window → Window) : (s.withWin f).sched = s.sched := rfl

@[simp] theorem State.withWin_curCtx (s : State) (f : Window → Window) : (s.withWin f).curCtx = s.curCtx.onWin f :=
  State.ctx_apply_same ..

theorem State.withWin_ctx_other (s : State) (f : Window → Window) {k c : Nat}
    (h : ctxKey k c ≠ ctxKey s.cur.core s.cur.ctx) : (s.withWin f).ctx k c = s.ctx k c :=
  State.ctx_apply_other s h _

/-! ### Programs of changes -/

/-- Every run of the program ends in the state its new changes make. -/
def M.Sound {α : Type} (p : M α) : Prop :=
  ∀ s l, ∃ es, (p.run { s := s, log := l }).2 = { s := applyAll es s, log := es.reverse ++ l }

theorem M.sound_pure {α : Type} (a : α) : M.Sound (pure a) := fun _ _ => ⟨[], rfl⟩

theorem M.sound_bind {α β : Type} {p : M α} {q : α → M β} (hp : M.Sound p) (hq : ∀ a, M.Sound (q a)) :
    M.Sound (p >>= q) := by
  intro s l
  obtain ⟨es, he⟩ := hp s l
  obtain ⟨fs, hf⟩ := hq (p.run { s := s, log := l }).1 (applyAll es s) (es.reverse ++ l)
  refine ⟨es ++ fs, ?_⟩
  have : (p >>= q).run { s := s, log := l } = (q (p.run { s := s, log := l }).1).run (p.run { s := s, log := l }).2 := rfl
  rw [this, he, hf, applyAll_append, List.reverse_append, List.append_assoc]

theorem M.sound_eff (e : Eff) : M.Sound (eff e) := fun _ _ => ⟨[e], rfl⟩

theorem M.sound_getS : M.Sound getS := fun _ _ => ⟨[], rfl⟩

theorem M.sound_ite {α : Type} {c : Prop} [Decidable c] {p q : M α} (hp : M.Sound p) (hq : M.Sound q) :
    M.Sound (if c then p else q) := by split <;> assumption

/-- The state a sound program reaches is the next state. -/
theorem M.Sound.runM {p : M Unit} (h : M.Sound p) (s : State) : runM p s = .next (p.run { s := s }).2.s := by
  obtain ⟨es, he⟩ := h s []
  have he' : (p.run { s := s }).2 = { s := applyAll es s, log := es.reverse ++ [] } := he
  simp only [Machine.runM, act, changes, he', List.append_nil, List.reverse_reverse]

theorem M.sound_getCtx (k c : Nat) : M.Sound (getCtx k c) := fun _ _ => ⟨[], rfl⟩
theorem M.sound_setCtx (k c : Nat) (x : Ctx) : M.Sound (setCtx k c x) := M.sound_eff _
theorem M.sound_modCtx (k c : Nat) (f : Ctx → Ctx) : M.Sound (modCtx k c f) :=
  M.sound_bind (M.sound_getCtx _ _) fun _ => M.sound_eff _
theorem M.sound_getCore (k : Nat) : M.Sound (getCore k) := fun _ _ => ⟨[], rfl⟩
theorem M.sound_modCore (k : Nat) (f : Core → Core) : M.Sound (modCore k f) :=
  M.sound_bind (M.sound_getCore _) fun _ => M.sound_eff _
theorem M.sound_getCluster (k : Nat) : M.Sound (getCluster k) := fun _ _ => ⟨[], rfl⟩
theorem M.sound_modCluster (k : Nat) (f : Cluster → Cluster) : M.Sound (modCluster k f) :=
  M.sound_bind (M.sound_getCluster _) fun _ => M.sound_eff _
theorem M.sound_modNet (f : Net → Net) : M.Sound (modNet f) :=
  M.sound_bind (M.sound_getS) fun _ => M.sound_eff _
theorem M.sound_modMgmt (f : Mgmt → Mgmt) : M.Sound (modMgmt f) :=
  M.sound_bind (M.sound_getS) fun _ => M.sound_eff _

theorem M.sound_modPart (p : Nat) (f : Partition → Partition) : M.Sound (modPart p f) := by
  refine M.sound_bind M.sound_getS fun s => ?_
  split
  · exact M.sound_eff _
  · exact M.sound_pure _

theorem M.sound_modLaunch (n : Nat) (f : Launch → Launch) : M.Sound (modLaunch n f) := by
  refine M.sound_bind M.sound_getS fun s => ?_
  split
  · exact M.sound_eff _
  · exact M.sound_pure _

theorem M.sound_pokes (k : Nat) (bs : List Byte) : M.Sound (pokes k bs) := by
  induction bs generalizing k with
  | nil => exact M.sound_pure _
  | cons b t ih => exact M.sound_bind (M.sound_eff _) fun _ => ih _

end Sys2Proof.Machine
end

