-- ==== Sys2Proof/Laws/Words.lean ====
section
/-! SUPPORT. The fields of a word put together by the encoder, read back (R25). -/

namespace Sys2Proof

section
variable (op sub : Nat) (gm : BitVec 2) (rx : Bool) (hn : BitVec 3) (lw : BitVec 6) (x y z : BitVec 24)

theorem asmWord_extract (start len : Nat) :
    (asmWord op sub gm rx hn lw x y z).extractLsb' start len =
      @BitVec.extractLsb' (8 + 4 + 2 + 1 + 3 + 6 + 24 + 24 + 24) start len
        (BitVec.ofNat 8 op ++ BitVec.ofNat 4 sub ++ gm ++ BitVec.ofBool rx ++ hn ++ lw ++ x ++ y ++ z) := rfl

theorem asmWord_op : (asmWord op sub gm rx hn lw x y z).extractLsb' 88 8 = BitVec.ofNat 8 op := by
  rw [asmWord_extract]
  simp (disch := omega) only [BitVec.extractLsb'_append_eq_of_le]
  exact BitVec.extractLsb'_eq_self

theorem asmWord_sub : (asmWord op sub gm rx hn lw x y z).extractLsb' 84 4 = BitVec.ofNat 4 sub := by
  rw [asmWord_extract]
  simp (disch := omega) only [BitVec.extractLsb'_append_eq_of_le]
  exact BitVec.extractLsb'_append_eq_right

theorem asmWord_gm : (asmWord op sub gm rx hn lw x y z).extractLsb' 82 2 = gm := by
  rw [asmWord_extract]
  simp (disch := omega) only [BitVec.extractLsb'_append_eq_of_le]
  exact BitVec.extractLsb'_append_eq_right

theorem asmWord_rx : (asmWord op sub gm rx hn lw x y z).extractLsb' 81 1 = BitVec.ofBool rx := by
  rw [asmWord_extract]
  simp (disch := omega) only [BitVec.extractLsb'_append_eq_of_le]
  exact BitVec.extractLsb'_append_eq_right

theorem asmWord_hn : (asmWord op sub gm rx hn lw x y z).extractLsb' 78 3 = hn := by
  rw [asmWord_extract]
  simp (disch := omega) only [BitVec.extractLsb'_append_eq_of_le]
  exact BitVec.extractLsb'_append_eq_right

theorem asmWord_lw : (asmWord op sub gm rx hn lw x y z).extractLsb' 72 6 = lw := by
  rw [asmWord_extract]
  simp (disch := omega) only [BitVec.extractLsb'_append_eq_of_le]
  exact BitVec.extractLsb'_append_eq_right

/-- Part of LW. -/
theorem asmWord_lw_part (start len : Nat) (h : start + len ≤ 6) :
    (asmWord op sub gm rx hn lw x y z).extractLsb' (72 + start) len = lw.extractLsb' start len := by
  rw [asmWord_extract]
  simp (disch := omega) only [BitVec.extractLsb'_append_eq_of_le]
  rw [show 72 + start - 24 - 24 - 24 = start by omega]
  exact BitVec.extractLsb'_append_eq_of_add_le h

/-- Part of X. -/
theorem asmWord_x_part (start len : Nat) (h : start + len ≤ 24) :
    (asmWord op sub gm rx hn lw x y z).extractLsb' (48 + start) len = x.extractLsb' start len := by
  rw [asmWord_extract]
  simp (disch := omega) only [BitVec.extractLsb'_append_eq_of_le]
  rw [show 48 + start - 24 - 24 = start by omega]
  exact BitVec.extractLsb'_append_eq_of_add_le h

/-- Part of Y. -/
theorem asmWord_y_part (start len : Nat) (h : start + len ≤ 24) :
    (asmWord op sub gm rx hn lw x y z).extractLsb' (24 + start) len = y.extractLsb' start len := by
  rw [asmWord_extract]
  simp (disch := omega) only [BitVec.extractLsb'_append_eq_of_le]
  rw [show 24 + start - 24 = start by omega]
  exact BitVec.extractLsb'_append_eq_of_add_le h

/-- Part of Z. -/
theorem asmWord_z_part (start len : Nat) (h : start + len ≤ 24) :
    (asmWord op sub gm rx hn lw x y z).extractLsb' start len = z.extractLsb' start len := by
  rw [asmWord_extract]
  exact BitVec.extractLsb'_append_eq_of_add_le h

theorem asmWord_code_op (h : op < 256) : (asmWord op sub gm rx hn lw x y z).op = op := by
  rw [Code.op, asmWord_op, BitVec.toNat_ofNat, Nat.mod_eq_of_lt h]

theorem asmWord_code_sub (h : sub < 16) : (asmWord op sub gm rx hn lw x y z).sub = sub := by
  rw [Code.sub, asmWord_sub, BitVec.toNat_ofNat, Nat.mod_eq_of_lt h]

end

/-- A target read from its own bits (Table 2 of R29). -/
theorem readTarget_bits (t : Option Target) : readTarget (Target.bits t) = t := by
  cases t with
  | none => rfl
  | some t =>
    cases t with
    | slot s i => cases s <;> revert i <;> decide
    | greg n => revert n; decide
    | vreg n => revert n; decide

end Sys2Proof
end

