-- ==== Sys2Proof/Laws/PerInstr.lean ====
section
/-! SUPPORT. What holds of each constructor of `Instr` as syntax. Family `TableRow`: the opcode and sub-opcode of a form's
word are those of its row of Table 9 (R44). -/

namespace Sys2Proof.Laws.TableRow

def Statement (i : Instr) : Prop := ∀ w, encode i = some w → ∀ r, i.info = some r → w.op = r.op ∧ w.sub = r.sub

theorem of_row {i : Instr} {w : Code} {r : FormInfo} {op sub : Nat} {gm : BitVec 2} {rx : Bool} {hn : BitVec 3}
    {lw : BitVec 6} {x y z : BitVec 24} (hw : encode i = some w) (hr : i.info = some r)
    (ho : op < 256) (hs : sub < 16) (ew : encode i = some (asmWord op sub gm rx hn lw x y z))
    (er : (i.info.map fun r => (r.op, r.sub)) = some (op, sub)) : w.op = r.op ∧ w.sub = r.sub := by
  rw [ew] at hw
  rw [hr] at er
  cases hw
  injection er with er
  injection er with h1 h2
  rw [asmWord_code_op (h := ho), asmWord_code_sub (h := hs)]
  exact ⟨h1.symm, h2.symm⟩

theorem add (f : FmtA) : Statement (.add f) :=
  fun _ h _ hr => of_row h hr (by decide) (by decide) rfl rfl
theorem sub (f : FmtA) : Statement (.sub f) :=
  fun _ h _ hr => of_row h hr (by decide) (by decide) rfl rfl
theorem mul (f : FmtA) : Statement (.mul f) :=
  fun _ h _ hr => of_row h hr (by decide) (by decide) rfl rfl
theorem mulh (f : FmtA) : Statement (.mulh f) :=
  fun _ h _ hr => of_row h hr (by decide) (by decide) rfl rfl
theorem mulhu (f : FmtA) : Statement (.mulhu f) :=
  fun _ h _ hr => of_row h hr (by decide) (by decide) rfl rfl
theorem div (f : FmtA) : Statement (.div f) :=
  fun _ h _ hr => of_row h hr (by decide) (by decide) rfl rfl
theorem divu (f : FmtA) : Statement (.divu f) :=
  fun _ h _ hr => of_row h hr (by decide) (by decide) rfl rfl
theorem rem (f : FmtA) : Statement (.rem f) :=
  fun _ h _ hr => of_row h hr (by decide) (by decide) rfl rfl
theorem remu (f : FmtA) : Statement (.remu f) :=
  fun _ h _ hr => of_row h hr (by decide) (by decide) rfl rfl
theorem min (f : FmtA) : Statement (.min f) :=
  fun _ h _ hr => of_row h hr (by decide) (by decide) rfl rfl
theorem max (f : FmtA) : Statement (.max f) :=
  fun _ h _ hr => of_row h hr (by decide) (by decide) rfl rfl
theorem minu (f : FmtA) : Statement (.minu f) :=
  fun _ h _ hr => of_row h hr (by decide) (by decide) rfl rfl
theorem maxu (f : FmtA) : Statement (.maxu f) :=
  fun _ h _ hr => of_row h hr (by decide) (by decide) rfl rfl
theorem neg (f : FmtA) : Statement (.neg f) :=
  fun _ h _ hr => of_row h hr (by decide) (by decide) rfl rfl
theorem abs (f : FmtA) : Statement (.abs f) :=
  fun _ h _ hr => of_row h hr (by decide) (by decide) rfl rfl
theorem addi (f : FmtA) : Statement (.addi f) :=
  fun _ h _ hr => of_row h hr (by decide) (by decide) rfl rfl
theorem muli (f : FmtA) : Statement (.muli f) :=
  fun _ h _ hr => of_row h hr (by decide) (by decide) rfl rfl
theorem andi (f : FmtA) : Statement (.andi f) :=
  fun _ h _ hr => of_row h hr (by decide) (by decide) rfl rfl
theorem ori (f : FmtA) : Statement (.ori f) :=
  fun _ h _ hr => of_row h hr (by decide) (by decide) rfl rfl
theorem xori (f : FmtA) : Statement (.xori f) :=
  fun _ h _ hr => of_row h hr (by decide) (by decide) rfl rfl
theorem shli (f : FmtA) : Statement (.shli f) :=
  fun _ h _ hr => of_row h hr (by decide) (by decide) rfl rfl
theorem shri (f : FmtA) : Statement (.shri f) :=
  fun _ h _ hr => of_row h hr (by decide) (by decide) rfl rfl
theorem sari (f : FmtA) : Statement (.sari f) :=
  fun _ h _ hr => of_row h hr (by decide) (by decide) rfl rfl
theorem ceqi (f : FmtA) : Statement (.ceqi f) :=
  fun _ h _ hr => of_row h hr (by decide) (by decide) rfl rfl
theorem cnei (f : FmtA) : Statement (.cnei f) :=
  fun _ h _ hr => of_row h hr (by decide) (by decide) rfl rfl
theorem clti (f : FmtA) : Statement (.clti f) :=
  fun _ h _ hr => of_row h hr (by decide) (by decide) rfl rfl
theorem clei (f : FmtA) : Statement (.clei f) :=
  fun _ h _ hr => of_row h hr (by decide) (by decide) rfl rfl
theorem cltui (f : FmtA) : Statement (.cltui f) :=
  fun _ h _ hr => of_row h hr (by decide) (by decide) rfl rfl
theorem cleui (f : FmtA) : Statement (.cleui f) :=
  fun _ h _ hr => of_row h hr (by decide) (by decide) rfl rfl
theorem lea (f : FmtA) : Statement (.lea f) :=
  fun _ h _ hr => of_row h hr (by decide) (by decide) rfl rfl
theorem and (f : FmtA) : Statement (.and f) :=
  fun _ h _ hr => of_row h hr (by decide) (by decide) rfl rfl
theorem or (f : FmtA) : Statement (.or f) :=
  fun _ h _ hr => of_row h hr (by decide) (by decide) rfl rfl
theorem xor (f : FmtA) : Statement (.xor f) :=
  fun _ h _ hr => of_row h hr (by decide) (by decide) rfl rfl
theorem not (f : FmtA) : Statement (.not f) :=
  fun _ h _ hr => of_row h hr (by decide) (by decide) rfl rfl
theorem shl (f : FmtA) : Statement (.shl f) :=
  fun _ h _ hr => of_row h hr (by decide) (by decide) rfl rfl
theorem shr (f : FmtA) : Statement (.shr f) :=
  fun _ h _ hr => of_row h hr (by decide) (by decide) rfl rfl
theorem sar (f : FmtA) : Statement (.sar f) :=
  fun _ h _ hr => of_row h hr (by decide) (by decide) rfl rfl
theorem rot (f : FmtA) : Statement (.rot f) :=
  fun _ h _ hr => of_row h hr (by decide) (by decide) rfl rfl
theorem clz (f : FmtA) : Statement (.clz f) :=
  fun _ h _ hr => of_row h hr (by decide) (by decide) rfl rfl
theorem ctz (f : FmtA) : Statement (.ctz f) :=
  fun _ h _ hr => of_row h hr (by decide) (by decide) rfl rfl
theorem popc (f : FmtA) : Statement (.popc f) :=
  fun _ h _ hr => of_row h hr (by decide) (by decide) rfl rfl
theorem bfx (f : FmtA) : Statement (.bfx f) :=
  fun _ h _ hr => of_row h hr (by decide) (by decide) rfl rfl
theorem bfi (f : FmtA) : Statement (.bfi f) :=
  fun _ h _ hr => of_row h hr (by decide) (by decide) rfl rfl
theorem sext (f : FmtA) : Statement (.sext f) :=
  fun _ h _ hr => of_row h hr (by decide) (by decide) rfl rfl
theorem zext (f : FmtA) : Statement (.zext f) :=
  fun _ h _ hr => of_row h hr (by decide) (by decide) rfl rfl
theorem ceq (f : FmtA) : Statement (.ceq f) :=
  fun _ h _ hr => of_row h hr (by decide) (by decide) rfl rfl
theorem cne (f : FmtA) : Statement (.cne f) :=
  fun _ h _ hr => of_row h hr (by decide) (by decide) rfl rfl
theorem clt (f : FmtA) : Statement (.clt f) :=
  fun _ h _ hr => of_row h hr (by decide) (by decide) rfl rfl
theorem cle (f : FmtA) : Statement (.cle f) :=
  fun _ h _ hr => of_row h hr (by decide) (by decide) rfl rfl
theorem cltu (f : FmtA) : Statement (.cltu f) :=
  fun _ h _ hr => of_row h hr (by decide) (by decide) rfl rfl
theorem cleu (f : FmtA) : Statement (.cleu f) :=
  fun _ h _ hr => of_row h hr (by decide) (by decide) rfl rfl
theorem pand (f : FmtA) : Statement (.pand f) :=
  fun _ h _ hr => of_row h hr (by decide) (by decide) rfl rfl
theorem por (f : FmtA) : Statement (.por f) :=
  fun _ h _ hr => of_row h hr (by decide) (by decide) rfl rfl
theorem pxor (f : FmtA) : Statement (.pxor f) :=
  fun _ h _ hr => of_row h hr (by decide) (by decide) rfl rfl
theorem pnot (f : FmtA) : Statement (.pnot f) :=
  fun _ h _ hr => of_row h hr (by decide) (by decide) rfl rfl
theorem ppack (f : FmtA) : Statement (.ppack f) :=
  fun _ h _ hr => of_row h hr (by decide) (by decide) rfl rfl
theorem pbit (f : FmtA) : Statement (.pbit f) :=
  fun _ h _ hr => of_row h hr (by decide) (by decide) rfl rfl
theorem sel (f : FmtA) : Statement (.sel f) :=
  fun _ h _ hr => of_row h hr (by decide) (by decide) rfl rfl
theorem isnull (f : FmtA) : Statement (.isnull f) :=
  fun _ h _ hr => of_row h hr (by decide) (by decide) rfl rfl
theorem mov (f : FmtA) : Statement (.mov f) :=
  fun _ h _ hr => of_row h hr (by decide) (by decide) rfl rfl
theorem movi (f : FmtK) : Statement (.movi f) :=
  fun _ h _ hr => of_row h hr (by decide) (by decide) rfl rfl
theorem movhi (f : FmtA) : Statement (.movhi f) :=
  fun _ h _ hr => of_row h hr (by decide) (by decide) rfl rfl
theorem null (f : FmtA) : Statement (.null f) :=
  fun _ h _ hr => of_row h hr (by decide) (by decide) rfl rfl
theorem get (f : FmtG) : Statement (.get f) :=
  fun _ h _ hr => of_row h hr (by decide) (by decide) rfl rfl
theorem mfc (f : FmtA) : Statement (.mfc f) :=
  fun _ h _ hr => of_row h hr (by decide) (by decide) rfl rfl
theorem mtc (f : FmtA) : Statement (.mtc f) :=
  fun _ h _ hr => of_row h hr (by decide) (by decide) rfl rfl
theorem gtid (f : FmtA) : Statement (.gtid f) :=
  fun _ h _ hr => of_row h hr (by decide) (by decide) rfl rfl
theorem core (f : FmtA) : Statement (.core f) :=
  fun _ h _ hr => of_row h hr (by decide) (by decide) rfl rfl
theorem clk (f : FmtA) : Statement (.clk f) :=
  fun _ h _ hr => of_row h hr (by decide) (by decide) rfl rfl
theorem sigchk (f : FmtA) : Statement (.sigchk f) :=
  fun _ h _ hr => of_row h hr (by decide) (by decide) rfl rfl
theorem fadd (f : FmtA) : Statement (.fadd f) :=
  fun _ h _ hr => of_row h hr (by decide) (by decide) rfl rfl
theorem fsub (f : FmtA) : Statement (.fsub f) :=
  fun _ h _ hr => of_row h hr (by decide) (by decide) rfl rfl
theorem fmul (f : FmtA) : Statement (.fmul f) :=
  fun _ h _ hr => of_row h hr (by decide) (by decide) rfl rfl
theorem fdiv (f : FmtA) : Statement (.fdiv f) :=
  fun _ h _ hr => of_row h hr (by decide) (by decide) rfl rfl
theorem fsqrt (f : FmtA) : Statement (.fsqrt f) :=
  fun _ h _ hr => of_row h hr (by decide) (by decide) rfl rfl
theorem fma (f : FmtA) : Statement (.fma f) :=
  fun _ h _ hr => of_row h hr (by decide) (by decide) rfl rfl
theorem fmin (f : FmtA) : Statement (.fmin f) :=
  fun _ h _ hr => of_row h hr (by decide) (by decide) rfl rfl
theorem fmax (f : FmtA) : Statement (.fmax f) :=
  fun _ h _ hr => of_row h hr (by decide) (by decide) rfl rfl
theorem fneg (f : FmtA) : Statement (.fneg f) :=
  fun _ h _ hr => of_row h hr (by decide) (by decide) rfl rfl
theorem fabs (f : FmtA) : Statement (.fabs f) :=
  fun _ h _ hr => of_row h hr (by decide) (by decide) rfl rfl
theorem fceq (f : FmtA) : Statement (.fceq f) :=
  fun _ h _ hr => of_row h hr (by decide) (by decide) rfl rfl
theorem fclt (f : FmtA) : Statement (.fclt f) :=
  fun _ h _ hr => of_row h hr (by decide) (by decide) rfl rfl
theorem fcle (f : FmtA) : Statement (.fcle f) :=
  fun _ h _ hr => of_row h hr (by decide) (by decide) rfl rfl
theorem fcun (f : FmtA) : Statement (.fcun f) :=
  fun _ h _ hr => of_row h hr (by decide) (by decide) rfl rfl
theorem cvt (f : FmtA) : Statement (.cvt f) :=
  fun _ h _ hr => of_row h hr (by decide) (by decide) rfl rfl
theorem bra (f : FmtB) : Statement (.bra f) :=
  fun _ h _ hr => of_row h hr (by decide) (by decide) rfl rfl
theorem jmp (f : FmtB) : Statement (.jmp f) :=
  fun _ h _ hr => of_row h hr (by decide) (by decide) rfl rfl
theorem call (f : FmtB) : Statement (.call f) :=
  fun _ h _ hr => of_row h hr (by decide) (by decide) rfl rfl
theorem ret (f : FmtB) : Statement (.ret f) :=
  fun _ h _ hr => of_row h hr (by decide) (by decide) rfl rfl
theorem tend (f : FmtB) : Statement (.tend f) :=
  fun _ h _ hr => of_row h hr (by decide) (by decide) rfl rfl
theorem trap (f : FmtB) : Statement (.trap f) :=
  fun _ h _ hr => of_row h hr (by decide) (by decide) rfl rfl
theorem mig (f : FmtB) : Statement (.mig f) :=
  fun _ h _ hr => of_row h hr (by decide) (by decide) rfl rfl
theorem fork (f : FmtE) : Statement (.fork f) :=
  fun _ h _ hr => of_row h hr (by decide) (by decide) rfl rfl
theorem join (f : FmtE) : Statement (.join f) :=
  fun _ h _ hr => of_row h hr (by decide) (by decide) rfl rfl
theorem jwait (f : FmtE) : Statement (.jwait f) :=
  fun _ h _ hr => of_row h hr (by decide) (by decide) rfl rfl
theorem pause (f : FmtS) : Statement (.pause f) :=
  fun _ h _ hr => of_row h hr (by decide) (by decide) rfl rfl
theorem rngopen (f : FmtE) : Statement (.rngopen f) :=
  fun _ h _ hr => of_row h hr (by decide) (by decide) rfl rfl
theorem rngdraw (f : FmtS) : Statement (.rngdraw f) :=
  fun _ h _ hr => of_row h hr (by decide) (by decide) rfl rfl
theorem rngclose (f : FmtE) : Statement (.rngclose f) :=
  fun _ h _ hr => of_row h hr (by decide) (by decide) rfl rfl
theorem vadd (f : FmtA) : Statement (.vadd f) :=
  fun _ h _ hr => of_row h hr (by decide) (by decide) rfl rfl
theorem vsub (f : FmtA) : Statement (.vsub f) :=
  fun _ h _ hr => of_row h hr (by decide) (by decide) rfl rfl
theorem vmul (f : FmtA) : Statement (.vmul f) :=
  fun _ h _ hr => of_row h hr (by decide) (by decide) rfl rfl
theorem vfma (f : FmtA) : Statement (.vfma f) :=
  fun _ h _ hr => of_row h hr (by decide) (by decide) rfl rfl
theorem vmin (f : FmtA) : Statement (.vmin f) :=
  fun _ h _ hr => of_row h hr (by decide) (by decide) rfl rfl
theorem vmax (f : FmtA) : Statement (.vmax f) :=
  fun _ h _ hr => of_row h hr (by decide) (by decide) rfl rfl
theorem vabs (f : FmtA) : Statement (.vabs f) :=
  fun _ h _ hr => of_row h hr (by decide) (by decide) rfl rfl
theorem vneg (f : FmtA) : Statement (.vneg f) :=
  fun _ h _ hr => of_row h hr (by decide) (by decide) rfl rfl
theorem vdiv (f : FmtA) : Statement (.vdiv f) :=
  fun _ h _ hr => of_row h hr (by decide) (by decide) rfl rfl
theorem vsqrt (f : FmtA) : Statement (.vsqrt f) :=
  fun _ h _ hr => of_row h hr (by decide) (by decide) rfl rfl
theorem vcmp (f : FmtA) : Statement (.vcmp f) :=
  fun _ h _ hr => of_row h hr (by decide) (by decide) rfl rfl
theorem vsel (f : FmtA) : Statement (.vsel f) :=
  fun _ h _ hr => of_row h hr (by decide) (by decide) rfl rfl
theorem vmask (f : FmtA) : Statement (.vmask f) :=
  fun _ h _ hr => of_row h hr (by decide) (by decide) rfl rfl
theorem vtmul (f : FmtA) : Statement (.vtmul f) :=
  fun _ h _ hr => of_row h hr (by decide) (by decide) rfl rfl
theorem vtadd (f : FmtA) : Statement (.vtadd f) :=
  fun _ h _ hr => of_row h hr (by decide) (by decide) rfl rfl
theorem vcvt (f : FmtA) : Statement (.vcvt f) :=
  fun _ h _ hr => of_row h hr (by decide) (by decide) rfl rfl
theorem vscale (f : FmtA) : Statement (.vscale f) :=
  fun _ h _ hr => of_row h hr (by decide) (by decide) rfl rfl
theorem vdot (f : FmtA) : Statement (.vdot f) :=
  fun _ h _ hr => of_row h hr (by decide) (by decide) rfl rfl
theorem vred (f : FmtA) : Statement (.vred f) :=
  fun _ h _ hr => of_row h hr (by decide) (by decide) rfl rfl
theorem vperm (f : FmtA) : Statement (.vperm f) :=
  fun _ h _ hr => of_row h hr (by decide) (by decide) rfl rfl
theorem vbcast (f : FmtA) : Statement (.vbcast f) :=
  fun _ h _ hr => of_row h hr (by decide) (by decide) rfl rfl
theorem vext (f : FmtA) : Statement (.vext f) :=
  fun _ h _ hr => of_row h hr (by decide) (by decide) rfl rfl
theorem vins (f : FmtA) : Statement (.vins f) :=
  fun _ h _ hr => of_row h hr (by decide) (by decide) rfl rfl
theorem vtag (f : FmtA) : Statement (.vtag f) :=
  fun _ h _ hr => of_row h hr (by decide) (by decide) rfl rfl
theorem ldb (f : FmtM) : Statement (.ldb f) :=
  fun _ h _ hr => of_row h hr (by decide) (by decide) rfl rfl
theorem ldh (f : FmtM) : Statement (.ldh f) :=
  fun _ h _ hr => of_row h hr (by decide) (by decide) rfl rfl
theorem ldw (f : FmtM) : Statement (.ldw f) :=
  fun _ h _ hr => of_row h hr (by decide) (by decide) rfl rfl
theorem ldd (f : FmtM) : Statement (.ldd f) :=
  fun _ h _ hr => of_row h hr (by decide) (by decide) rfl rfl
theorem ldbu (f : FmtM) : Statement (.ldbu f) :=
  fun _ h _ hr => of_row h hr (by decide) (by decide) rfl rfl
theorem ldhu (f : FmtM) : Statement (.ldhu f) :=
  fun _ h _ hr => of_row h hr (by decide) (by decide) rfl rfl
theorem ldwu (f : FmtM) : Statement (.ldwu f) :=
  fun _ h _ hr => of_row h hr (by decide) (by decide) rfl rfl
theorem stb (f : FmtM) : Statement (.stb f) :=
  fun _ h _ hr => of_row h hr (by decide) (by decide) rfl rfl
theorem sth (f : FmtM) : Statement (.sth f) :=
  fun _ h _ hr => of_row h hr (by decide) (by decide) rfl rfl
theorem stw (f : FmtM) : Statement (.stw f) :=
  fun _ h _ hr => of_row h hr (by decide) (by decide) rfl rfl
theorem std (f : FmtM) : Statement (.std f) :=
  fun _ h _ hr => of_row h hr (by decide) (by decide) rfl rfl
theorem vld (f : FmtM) : Statement (.vld f) :=
  fun _ h _ hr => of_row h hr (by decide) (by decide) rfl rfl
theorem vst (f : FmtM) : Statement (.vst f) :=
  fun _ h _ hr => of_row h hr (by decide) (by decide) rfl rfl
theorem vldg (f : FmtM) : Statement (.vldg f) :=
  fun _ h _ hr => of_row h hr (by decide) (by decide) rfl rfl
theorem vsts (f : FmtM) : Statement (.vsts f) :=
  fun _ h _ hr => of_row h hr (by decide) (by decide) rfl rfl
theorem ldf (f : FmtM) : Statement (.ldf f) :=
  fun _ h _ hr => of_row h hr (by decide) (by decide) rfl rfl
theorem lde (f : FmtM) : Statement (.lde f) :=
  fun _ h _ hr => of_row h hr (by decide) (by decide) rfl rfl
theorem stf (f : FmtM) : Statement (.stf f) :=
  fun _ h _ hr => of_row h hr (by decide) (by decide) rfl rfl
theorem sts (f : FmtM) : Statement (.sts f) :=
  fun _ h _ hr => of_row h hr (by decide) (by decide) rfl rfl
theorem feset (f : FmtM) : Statement (.feset f) :=
  fun _ h _ hr => of_row h hr (by decide) (by decide) rfl rfl
theorem feclr (f : FmtM) : Statement (.feclr f) :=
  fun _ h _ hr => of_row h hr (by decide) (by decide) rfl rfl
theorem feget (f : FmtM) : Statement (.feget f) :=
  fun _ h _ hr => of_row h hr (by decide) (by decide) rfl rfl
theorem fence (f : FmtM) : Statement (.fence f) :=
  fun _ h _ hr => of_row h hr (by decide) (by decide) rfl rfl
theorem aadd (f : FmtM) : Statement (.aadd f) :=
  fun _ h _ hr => of_row h hr (by decide) (by decide) rfl rfl
theorem amin (f : FmtM) : Statement (.amin f) :=
  fun _ h _ hr => of_row h hr (by decide) (by decide) rfl rfl
theorem amax (f : FmtM) : Statement (.amax f) :=
  fun _ h _ hr => of_row h hr (by decide) (by decide) rfl rfl
theorem aminu (f : FmtM) : Statement (.aminu f) :=
  fun _ h _ hr => of_row h hr (by decide) (by decide) rfl rfl
theorem amaxu (f : FmtM) : Statement (.amaxu f) :=
  fun _ h _ hr => of_row h hr (by decide) (by decide) rfl rfl
theorem aand (f : FmtM) : Statement (.aand f) :=
  fun _ h _ hr => of_row h hr (by decide) (by decide) rfl rfl
theorem aor (f : FmtM) : Statement (.aor f) :=
  fun _ h _ hr => of_row h hr (by decide) (by decide) rfl rfl
theorem axor (f : FmtM) : Statement (.axor f) :=
  fun _ h _ hr => of_row h hr (by decide) (by decide) rfl rfl
theorem axch (f : FmtM) : Statement (.axch f) :=
  fun _ h _ hr => of_row h hr (by decide) (by decide) rfl rfl
theorem acas (f : FmtM) : Statement (.acas f) :=
  fun _ h _ hr => of_row h hr (by decide) (by decide) rfl rfl
theorem afadd (f : FmtM) : Statement (.afadd f) :=
  fun _ h _ hr => of_row h hr (by decide) (by decide) rfl rfl
theorem pfill (f : FmtM) : Statement (.pfill f) :=
  fun _ h _ hr => of_row h hr (by decide) (by decide) rfl rfl
theorem pgstat (f : FmtM) : Statement (.pgstat f) :=
  fun _ h _ hr => of_row h hr (by decide) (by decide) rfl rfl
theorem tlbinv (f : FmtM) : Statement (.tlbinv f) :=
  fun _ h _ hr => of_row h hr (by decide) (by decide) rfl rfl
theorem hwait (f : FmtE) : Statement (.hwait f) :=
  fun _ h _ hr => of_row h hr (by decide) (by decide) rfl rfl
theorem htest (f : FmtS) : Statement (.htest f) :=
  fun _ h _ hr => of_row h hr (by decide) (by decide) rfl rfl
theorem hcancel (f : FmtE) : Statement (.hcancel f) :=
  fun _ h _ hr => of_row h hr (by decide) (by decide) rfl rfl
theorem cpy (f : FmtE) : Statement (.cpy f) :=
  fun _ h _ hr => of_row h hr (by decide) (by decide) rfl rfl
theorem cpyx (f : FmtE) : Statement (.cpyx f) :=
  fun _ h _ hr => of_row h hr (by decide) (by decide) rfl rfl
theorem cpys (f : FmtE) : Statement (.cpys f) :=
  fun _ h _ hr => of_row h hr (by decide) (by decide) rfl rfl
theorem tmul (f : FmtE) : Statement (.tmul f) :=
  fun _ h _ hr => of_row h hr (by decide) (by decide) rfl rfl
theorem tmv (f : FmtE) : Statement (.tmv f) :=
  fun _ h _ hr => of_row h hr (by decide) (by decide) rfl rfl
theorem tadd (f : FmtE) : Statement (.tadd f) :=
  fun _ h _ hr => of_row h hr (by decide) (by decide) rfl rfl
theorem tasm (f : FmtE) : Statement (.tasm f) :=
  fun _ h _ hr => of_row h hr (by decide) (by decide) rfl rfl
theorem ttype (f : FmtE) : Statement (.ttype f) :=
  fun _ h _ hr => of_row h hr (by decide) (by decide) rfl rfl
theorem tfree (f : FmtE) : Statement (.tfree f) :=
  fun _ h _ hr => of_row h hr (by decide) (by decide) rfl rfl
theorem tcopy (f : FmtE) : Statement (.tcopy f) :=
  fun _ h _ hr => of_row h hr (by decide) (by decide) rfl rfl
theorem ttrans (f : FmtE) : Statement (.ttrans f) :=
  fun _ h _ hr => of_row h hr (by decide) (by decide) rfl rfl
theorem tsolve (f : FmtE) : Statement (.tsolve f) :=
  fun _ h _ hr => of_row h hr (by decide) (by decide) rfl rfl
theorem tchol (f : FmtE) : Statement (.tchol f) :=
  fun _ h _ hr => of_row h hr (by decide) (by decide) rfl rfl
theorem tresume (f : FmtE) : Statement (.tresume f) :=
  fun _ h _ hr => of_row h hr (by decide) (by decide) rfl rfl
theorem dvar (f : FmtE) : Statement (.dvar f) :=
  fun _ h _ hr => of_row h hr (by decide) (by decide) rfl rfl
theorem dapp (f : FmtE) : Statement (.dapp f) :=
  fun _ h _ hr => of_row h hr (by decide) (by decide) rfl rfl
theorem dnot (f : FmtE) : Statement (.dnot f) :=
  fun _ h _ hr => of_row h hr (by decide) (by decide) rfl rfl
theorem dite (f : FmtE) : Statement (.dite f) :=
  fun _ h _ hr => of_row h hr (by decide) (by decide) rfl rfl
theorem dres (f : FmtE) : Statement (.dres f) :=
  fun _ h _ hr => of_row h hr (by decide) (by decide) rfl rfl
theorem dexq (f : FmtE) : Statement (.dexq f) :=
  fun _ h _ hr => of_row h hr (by decide) (by decide) rfl rfl
theorem dcnt (f : FmtE) : Statement (.dcnt f) :=
  fun _ h _ hr => of_row h hr (by decide) (by decide) rfl rfl
theorem dref (f : FmtE) : Statement (.dref f) :=
  fun _ h _ hr => of_row h hr (by decide) (by decide) rfl rfl
theorem dunref (f : FmtE) : Statement (.dunref f) :=
  fun _ h _ hr => of_row h hr (by decide) (by decide) rfl rfl
theorem dgc (f : FmtE) : Statement (.dgc f) :=
  fun _ h _ hr => of_row h hr (by decide) (by decide) rfl rfl
theorem dsize (f : FmtE) : Statement (.dsize f) :=
  fun _ h _ hr => of_row h hr (by decide) (by decide) rfl rfl
theorem dresume (f : FmtE) : Statement (.dresume f) :=
  fun _ h _ hr => of_row h hr (by decide) (by decide) rfl rfl
theorem rsinit (f : FmtE) : Statement (.rsinit f) :=
  fun _ h _ hr => of_row h hr (by decide) (by decide) rfl rfl
theorem rsbegin (f : FmtE) : Statement (.rsbegin f) :=
  fun _ h _ hr => of_row h hr (by decide) (by decide) rfl rfl
theorem rsnext (f : FmtE) : Statement (.rsnext f) :=
  fun _ h _ hr => of_row h hr (by decide) (by decide) rfl rfl
theorem rsread (f : FmtE) : Statement (.rsread f) :=
  fun _ h _ hr => of_row h hr (by decide) (by decide) rfl rfl
theorem rsput (f : FmtE) : Statement (.rsput f) :=
  fun _ h _ hr => of_row h hr (by decide) (by decide) rfl rfl
theorem rsstat (f : FmtE) : Statement (.rsstat f) :=
  fun _ h _ hr => of_row h hr (by decide) (by decide) rfl rfl
theorem rfe (f : FmtS) : Statement (.rfe f) :=
  fun _ h _ hr => of_row h hr (by decide) (by decide) rfl rfl
theorem bkpt (f : FmtS) : Statement (.bkpt f) :=
  fun _ h _ hr => of_row h hr (by decide) (by decide) rfl rfl
theorem halt (f : FmtS) : Statement (.halt f) :=
  fun _ h _ hr => of_row h hr (by decide) (by decide) rfl rfl
theorem blockFetch (core : Nat) (ctx : Nat) : Statement (.blockFetch core ctx) := fun _ h => by cases h
theorem codeCacheFill (core : Nat) (ctx : Nat) : Statement (.codeCacheFill core ctx) := fun _ h => by cases h
theorem resultDelivery (core : Nat) (ctx : Nat) : Statement (.resultDelivery core ctx) := fun _ h => by cases h
theorem blockCommit (core : Nat) (ctx : Nat) : Statement (.blockCommit core ctx) := fun _ h => by cases h
theorem trapEntry (core : Nat) (ctx : Nat) : Statement (.trapEntry core ctx) := fun _ h => by cases h
theorem taskTerminate (core : Nat) (ctx : Nat) : Statement (.taskTerminate core ctx) := fun _ h => by cases h
theorem taskEnd (core : Nat) (ctx : Nat) : Statement (.taskEnd core ctx) := fun _ h => by cases h
theorem waitRetry (core : Nat) (ctx : Nat) : Statement (.waitRetry core ctx) := fun _ h => by cases h
theorem spinExpiry (core : Nat) (ctx : Nat) : Statement (.spinExpiry core ctx) := fun _ h => by cases h
theorem parkAttempt (core : Nat) (ctx : Nat) : Statement (.parkAttempt core ctx) := fun _ h => by cases h
theorem parkWriteout (core : Nat) (ctx : Nat) : Statement (.parkWriteout core ctx) := fun _ h => by cases h
theorem parkSlotRetryExpiry (core : Nat) (ctx : Nat) : Statement (.parkSlotRetryExpiry core ctx) := fun _ h => by cases h
theorem wakeDelivery (core : Nat) : Statement (.wakeDelivery core) := fun _ h => by cases h
theorem wlimitExpiry (core : Nat) (pslot : Nat) : Statement (.wlimitExpiry core pslot) := fun _ h => by cases h
theorem waitCancel (core : Nat) : Statement (.waitCancel core) := fun _ h => by cases h
theorem findWork (core : Nat) (ctx : Nat) : Statement (.findWork core ctx) := fun _ h => by cases h
theorem stealAttempt (core : Nat) (ctx : Nat) : Statement (.stealAttempt core ctx) := fun _ h => by cases h
theorem stealBackoffExpiry (core : Nat) (ctx : Nat) : Statement (.stealBackoffExpiry core ctx) := fun _ h => by cases h
theorem rootPlacement (launch : Nat) : Statement (.rootPlacement launch) := fun _ h => by cases h
theorem migrationArrival (core : Nat) : Statement (.migrationArrival core) := fun _ h => by cases h
theorem migrationNack (core : Nat) (ctx : Nat) : Statement (.migrationNack core ctx) := fun _ h => by cases h
theorem migrationRetryExpiry (core : Nat) (ctx : Nat) : Statement (.migrationRetryExpiry core ctx) := fun _ h => by cases h
theorem replyArrival (core : Nat) (ctx : Nat) : Statement (.replyArrival core ctx) := fun _ h => by cases h
theorem pauseExpiry (core : Nat) (ctx : Nat) : Statement (.pauseExpiry core ctx) := fun _ h => by cases h
theorem poolScrub (core : Nat) (word : Nat) : Statement (.poolScrub core word) := fun _ h => by cases h
theorem sendNonRelaxed (core : Nat) (ctx : Nat) : Statement (.sendNonRelaxed core ctx) := fun _ h => by cases h
theorem sendRelaxed (core : Nat) (ctx : Nat) (nth : Nat) : Statement (.sendRelaxed core ctx nth) := fun _ h => by cases h
theorem arrive (source : Source) (home : Home) : Statement (.arrive source home) := fun _ h => by cases h
theorem perform (home : Home) : Statement (.perform home) := fun _ h => by cases h
theorem replay (cluster : Nat) (nth : Nat) : Statement (.replay cluster nth) := fun _ h => by cases h
theorem acknowledge (core : Nat) (ctx : Nat) : Statement (.acknowledge core ctx) := fun _ h => by cases h
theorem faultRecordPost (cluster : Nat) : Statement (.faultRecordPost cluster) := fun _ h => by cases h
theorem faultPostRetryExpiry (core : Nat) (ctx : Nat) : Statement (.faultPostRetryExpiry core ctx) := fun _ h => by cases h
theorem engineJobResolve (cluster : Nat) (slot : Nat) : Statement (.engineJobResolve cluster slot) := fun _ h => by cases h
theorem mapExecutable (cluster : Nat) : Statement (.mapExecutable cluster) := fun _ h => by cases h
theorem withdrawExecutable (cluster : Nat) : Statement (.withdrawExecutable cluster) := fun _ h => by cases h
theorem pfillRelaxedWalk (core : Nat) (ctx : Nat) : Statement (.pfillRelaxedWalk core ctx) := fun _ h => by cases h
theorem queueReservationExpiry (cluster : Nat) (slot : Nat) : Statement (.queueReservationExpiry cluster slot) := fun _ h => by cases h
theorem tmeStep (cluster : Nat) : Statement (.tmeStep cluster) := fun _ h => by cases h
theorem ddeStep (cluster : Nat) : Statement (.ddeStep cluster) := fun _ h => by cases h
theorem copyFrame (cluster : Nat) : Statement (.copyFrame cluster) := fun _ h => by cases h
theorem cpyxChunk (cluster : Nat) (chunk : Nat) : Statement (.cpyxChunk cluster chunk) := fun _ h => by cases h
theorem cpyxFinish (cluster : Nat) : Statement (.cpyxFinish cluster) := fun _ h => by cases h
theorem eclipseRaise (part : Nat) (src : EclipseSource) : Statement (.eclipseRaise part src) := fun _ h => by cases h
theorem stopAreaWrite (part : Nat) : Statement (.stopAreaWrite part) := fun _ h => by cases h
theorem preemptGraceExpiry (part : Nat) : Statement (.preemptGraceExpiry part) := fun _ h => by cases h
theorem preemptAbortExpiry (part : Nat) : Statement (.preemptAbortExpiry part) := fun _ h => by cases h
theorem saveRecordWrite (part : Nat) : Statement (.saveRecordWrite part) := fun _ h => by cases h
theorem saveHeaderWrite (part : Nat) : Statement (.saveHeaderWrite part) := fun _ h => by cases h
theorem containment (umbra : Nat) : Statement (.containment umbra) := fun _ h => by cases h
theorem umbraFence (umbra : Nat) : Statement (.umbraFence umbra) := fun _ h => by cases h
theorem umbraReset (umbra : Nat) : Statement (.umbraReset umbra) := fun _ h => by cases h
theorem containmentNotice (umbra : Nat) : Statement (.containmentNotice umbra) := fun _ h => by cases h
theorem nackReceived (core : Nat) (ctx : Nat) : Statement (.nackReceived core ctx) := fun _ h => by cases h
theorem doorbell (port : Nat) (queue : Nat) (value : Word) : Statement (.doorbell port queue value) := fun _ h => by cases h
theorem peerDoorbell (link : Nat) (queue : Nat) (value : Word) : Statement (.peerDoorbell link queue value) := fun _ h => by cases h
theorem peerWrite (link : Nat) (ia : BitVec 48) (data : List Byte) : Statement (.peerWrite link ia data) := fun _ h => by cases h
theorem launchEntry (queue : Nat) : Statement (.launchEntry queue) := fun _ h => by cases h
theorem launchCompletion (launch : Nat) : Statement (.launchCompletion launch) := fun _ h => by cases h
theorem msixUnmask (port : Nat) (vec : Nat) : Statement (.msixUnmask port vec) := fun _ h => by cases h
theorem statRead (port : Nat) : Statement (.statRead port) := fun _ h => by cases h
theorem eventRead (port : Nat) : Statement (.eventRead port) := fun _ h => by cases h
theorem mailboxWrite (port : Nat) (off : Nat) (value : Word) : Statement (.mailboxWrite port off value) := fun _ h => by cases h
theorem createPartition (path : ReqPath) : Statement (.createPartition path) := fun _ h => by cases h
theorem destroyPartition (path : ReqPath) : Statement (.destroyPartition path) := fun _ h => by cases h
theorem setQueue (path : ReqPath) : Statement (.setQueue path) := fun _ h => by cases h
theorem preemptPartition (path : ReqPath) : Statement (.preemptPartition path) := fun _ h => by cases h
theorem resumePartition (path : ReqPath) : Statement (.resumePartition path) := fun _ h => by cases h
theorem setTimeSlotTables (path : ReqPath) : Statement (.setTimeSlotTables path) := fun _ h => by cases h
theorem setUmbrae (path : ReqPath) : Statement (.setUmbrae path) := fun _ h => by cases h
theorem terminateTask (path : ReqPath) : Statement (.terminateTask path) := fun _ h => by cases h
theorem readStartRecord (path : ReqPath) : Statement (.readStartRecord path) := fun _ h => by cases h
theorem attestationReport (path : ReqPath) : Statement (.attestationReport path) := fun _ h => by cases h
theorem raiseEclipseLine (path : ReqPath) : Statement (.raiseEclipseLine path) := fun _ h => by cases h
theorem releaseEclipseLine (path : ReqPath) : Statement (.releaseEclipseLine path) := fun _ h => by cases h
theorem attach (path : ReqPath) : Statement (.attach path) := fun _ h => by cases h
theorem detach (path : ReqPath) : Statement (.detach path) := fun _ h => by cases h
theorem setBreakpoint (path : ReqPath) : Statement (.setBreakpoint path) := fun _ h => by cases h
theorem releaseContext (path : ReqPath) : Statement (.releaseContext path) := fun _ h => by cases h
theorem releasePartition (path : ReqPath) : Statement (.releasePartition path) := fun _ h => by cases h
theorem readContext (path : ReqPath) : Statement (.readContext path) := fun _ h => by cases h
theorem writeContext (path : ReqPath) : Statement (.writeContext path) := fun _ h => by cases h
theorem readJobQueue (path : ReqPath) : Statement (.readJobQueue path) := fun _ h => by cases h
theorem readWakeTable (path : ReqPath) : Statement (.readWakeTable path) := fun _ h => by cases h
theorem readCopyTrace (path : ReqPath) : Statement (.readCopyTrace path) := fun _ h => by cases h
theorem timeSlotFrame : Statement .timeSlotFrame := fun _ h => by cases h
theorem moduleStart (outcomes : List StepRun) : Statement (.moduleStart outcomes) := fun _ h => by cases h
theorem dieAbove95 (die : Nat) : Statement (.dieAbove95 die) := fun _ h => by cases h
theorem dieBackAt90 : Statement .dieBackAt90 := fun _ h => by cases h
theorem dieAbove105 (die : Nat) : Statement (.dieAbove105 die) := fun _ h => by cases h
theorem overtempPowerRemoval : Statement .overtempPowerRemoval := fun _ h => by cases h
theorem clock : Statement .clock := fun _ h => by cases h
theorem unknownOperation (path : ReqPath) (op : BitVec 8) : Statement (.unknownOperation path op) := fun _ h => by cases h

end Sys2Proof.Laws.TableRow
end

