-- ==== Sys2Proof/Tests/Slice0.lean ====
section
/-! SUPPORT. Small tests: ill-formed terms are refused, words written out in the spec decode to their forms, single steps
give what the spec's rules and examples say, and a concrete state meets the hypotheses of each obligation. -/

namespace Sys2Proof.Tests
open Sys2Proof.Machine

-- One theorem at a time: the kernel's evaluations hold less memory at once.
set_option Elab.async false

/-! ### WellFormed: one ill-formed term for each check -/

/-- R25: GM 11. -/
theorem test_wf_guard : (Instr.add { gm := .reserved }).wellFormed = false ∧ (Instr.movi { gm := .reserved }).wellFormed = false ∧
    (Instr.get { gm := .reserved }).wellFormed = false ∧ (Instr.ldd { gm := .reserved }).wellFormed = false ∧
    (Instr.jmp { gm := .reserved }).wellFormed = false ∧ (Instr.fork { gm := .reserved }).wellFormed = false ∧
    (Instr.pause { gm := .reserved }).wellFormed = false := by decide

/-- R27, R28 and R31: WD of a form that takes only D, XF of a form that takes none, an LEA scale above 3, Z of a form that
takes none; format tag 0 (R122). -/
theorem test_wf_fields : (Instr.fadd { wd := .h }).wellFormed = false ∧ (Instr.add { xf := 1 }).wellFormed = false ∧
    (Instr.lea { xf := 4 }).wellFormed = false ∧ (Instr.add { z := 1 }).wellFormed = false ∧
    (Instr.vadd { xf := 0 }).wellFormed = false ∧ (Instr.vadd { xf := 13 }).wellFormed = false := by decide

/-- R30 and R36: a target twice, a scalar to a v register, a vector to a g register or a p slot, a target of a form
without a result. -/
theorem test_wf_targets :
    (Instr.add { t := { t0 := some (.greg 1), t1 := some (.greg 1) } }).wellFormed = false ∧
    (Instr.movi { t0 := some (.slot .a 3), t1 := some (.slot .a 3) }).wellFormed = false ∧
    (Instr.add { t := { t0 := some (.vreg 1) } }).wellFormed = false ∧
    (Instr.vadd { xf := 1, t := { t0 := some (.greg 1) } }).wellFormed = false ∧
    (Instr.vadd { xf := 1, t := { t0 := some (.slot .p 1) } }).wellFormed = false ∧
    (Instr.std { t := { t0 := some (.greg 1) } }).wellFormed = false ∧
    (Instr.bra { t0 := some (.greg 1) }).wellFormed = false ∧
    (Instr.get { vec := true, reg := 8 }).wellFormed = false := by decide

/-- The values of Z: a control register no rule names (R103), a CVT source tag 0 or mode 5 (R140), a VLD tag 13, a far wait
other than the two of R234, an operator 8 of DAPP, RFE #2 (R331), a MOVHI constant of 17 bits, a VEXT lane 32. -/
theorem test_wf_z : (Instr.mfc { z := 0x0C }).wellFormed = false ∧ (Instr.mtc { z := 0x3F }).wellFormed = false ∧
    (Instr.cvt { xf := 1, z := 0x10 }).wellFormed = false ∧ (Instr.cvt { xf := 1, z := 0x51 }).wellFormed = false ∧
    (Instr.vld { z := 0xD00000 }).wellFormed = false ∧ (Instr.hwait { z := 0x200000 }).wellFormed = false ∧
    (Instr.dapp { z := 0x800000 }).wellFormed = false ∧ (Instr.rfe { z := 2 }).wellFormed = false ∧
    (Instr.movhi { z := 0x10000 }).wellFormed = false ∧ (Instr.vext { z := 0x20 }).wellFormed = false := by decide

/-- R25 and R26: RX where the form has none, RX with an ordering hint, a migration hint outside the memory forms. -/
theorem test_wf_hints : (Instr.ldf { rx := true }).wellFormed = false ∧
    (Instr.vst { rx := true, ord := true }).wellFormed = false ∧ (Instr.ldf { mig := true }).wellFormed = false := by decide

/-- R7, R8, R13 and R21: agents the module does not have. -/
theorem test_wf_agents : (Instr.blockFetch 4608 0).wellFormed = false ∧ (Instr.blockFetch 0 16).wellFormed = false ∧
    (Instr.faultRecordPost 576).wellFormed = false ∧ (Instr.stopAreaWrite 64).wellFormed = false ∧
    (Instr.statRead 2).wellFormed = false ∧ (Instr.launchEntry 8192).wellFormed = false := by decide +kernel

/-! ### Words of the spec's own tables -/

theorem test_decode_integer :
    decode 0x016000C0_30000000_00000000#96 = some (.divu { t := { t0 := some (.greg 3) } }) ∧
    decode 0x020000C0_E0000000_00FFFFF8#96 = some (.addi { t := { t0 := some (.greg 14) }, z := 0xFFFFF8 }) ∧
    decode 0x02C000B0_4B050000_00000004#96 =
      some (.cltui { t := { t0 := some (.slot .p 4), t1 := some (.slot .p 5) }, z := 4 }) ∧
    decode 0x04A007C0_591E0000_00000000#96 =
      some (.ppack { xf := 7, t := { t0 := some (.greg 5), t1 := some (.slot .b 30) } }) := by decide

theorem test_decode_move :
    decode 0x05100090_3000FFFF_FFFFFFFF#96 = some (.movi { t0 := some (.slot .b 3), imm := 0xFFFFFFFFFFFF }) ∧
    decode 0x052000C0_50000000_00004010#96 = some (.movhi { t := { t0 := some (.greg 5) }, z := 0x4010 }) ∧
    decode 0x05400080_38048058_06000000#96 = some (.get { t := ⟨some (.slot .a 3), some (.slot .a 4), some (.slot .a 5),
      some (.slot .a 6)⟩ }) ∧
    decode 0x05600000_00000000_00000009#96 = some (.mtc { z := 9 }) := by decide

theorem test_decode_float :
    decode 0x06201290_40000000_00000000#96 = some (.fmul { wd := .w, xf := 2, t := { t0 := some (.slot .b 4) } }) ∧
    decode 0x06E007C0_50000000_00000006#96 = some (.cvt { xf := 7, t := { t0 := some (.greg 5) }, z := 6 }) := by decide

theorem test_decode_exit :
    decode 0x072000C0_D0000000_00000010#96 = some (.call { t0 := some (.greg 13), z := 16 }) ∧
    decode 0x07100000_00000000_02000000#96 = some (.jmp { exit := 2 }) ∧
    decode 0x07500000_00000000_00000005#96 = some (.trap { z := 5 }) := by decide

theorem test_decode_task :
    decode 0x080001C0_50000000_00001010#96 = some (.fork { lsid := 1, t := { t0 := some (.greg 5) }, z := 0x1010 }) ∧
    decode 0x08303F00_00000000_00000100#96 = some (.pause { z := 256 }) ∧
    decode 0x08503FC0_40000000_00000000#96 = some (.rngdraw { t := { t0 := some (.greg 4) } }) := by decide

theorem test_decode_vector :
    decode 0x103006C1_10000000_00000000#96 = some (.vfma { xf := 6, t := { t0 := some (.vreg 1) } }) ∧
    decode 0x110007C1_40000000_00000000#96 = some (.vcvt { xf := 7, t := { t0 := some (.vreg 4) } }) ∧
    decode 0x114000C1_10000000_00053977#96 = some (.vperm { t := { t0 := some (.vreg 1) }, z := 0x053977 }) := by decide

theorem test_decode_memory :
    decode 0x200000C0_30000000_00FFFFFF#96 = some (.ldb { t := { t0 := some (.greg 3) }, z := 0xFFFFFF }) ∧
    decode 0x20B08300_00000000_00000000#96 = some (.std { ord := true, lsid := 3 }) ∧
    decode 0x20C000C1_10000000_00600020#96 = some (.vld { t := { t0 := some (.vreg 1) }, z := 0x600020 }) ∧
    decode 0x211800C0_30000000_00000000#96 = some (.lde { gm := .onFalse, t := { t0 := some (.greg 3) } }) ∧
    decode 0x22900180_60000000_00000010#96 = some (.acas { lsid := 1, t := { t0 := some (.slot .a 6) }, z := 16 }) ∧
    decode 0x23020000_00000000_00000000#96 = some (.pfill { rx := true }) ∧
    decode 0x23200100_00000000_00000000#96 = some (.tlbinv { lsid := 1 }) := by decide

theorem test_decode_engines :
    decode 0x30103FB0_20000000_00000000#96 = some (.htest { t := { t0 := some (.slot .p 2) } }) ∧
    decode 0x303001C0_30000000_00000000#96 = some (.cpy { lsid := 1, t := { t0 := some (.greg 3) } }) ∧
    decode 0x319003C0_50000000_00000000#96 = some (.tchol { lsid := 3, t := { t0 := some (.greg 5) } }) ∧
    decode 0x31300180_30000000_00000000#96 = some (.tasm { lsid := 1, t := { t0 := some (.slot .a 3) } }) ∧
    decode 0x321001C0_50000000_00600000#96 = some (.dapp { lsid := 1, t := { t0 := some (.greg 5) }, z := 0x600000 }) ∧
    decode 0x32B00000_00000000_00000000#96 = some (.dresume {}) := by decide

theorem test_decode_rate_and_system :
    decode 0x33200080_2C050000_00000000#96 =
      some (.rsnext { t := { t0 := some (.slot .a 2), t1 := some (.greg 5) } }) ∧
    decode 0x38043F00_00000000_00000000#96 = some (.rfe { gm := .onTrue }) ∧
    decode 0x38003F00_00000000_00000001#96 = some (.rfe { z := 1 }) ∧
    decode 0x38203F00_00000000_00000000#96 = some (.halt {}) := by decide

/-- R44 and R46: an opcode and a SUB that no row of Table 9 names. -/
theorem test_decode_reserved : decode 0x00000000_00000000_00000000#96 = none ∧ decode 0x01F00000_00000000_00000000#96 = none ∧
    decode 0xFF000000_00000000_00000000#96 = none := by decide

/-! ### Small states -/

/-- Reset, with context 0 of core 0 as given. -/
def withCtx (c : Ctx) (s : State := .reset) : State := { s with ctxs := [(0, c)] }

/-- Reset with one instruction in the block of context 0 of core 0, where the turn points. -/
def at0 (i : Inst) (c : Ctx := {}) (s : State := .reset) : State :=
  withCtx { c with status := .active, phase := .run, win := { c.win with insts := [i] } } s

/-- An instruction with these scalars in its slots a, b and c. -/
def scal (a : Word) (b : Word := 0) (c : Word := 0) : Inst :=
  { word := 0, a := some (.scalar a), b := some (.scalar b), c := some (.scalar c) }

/-- An instruction with these vectors of one tag in its slots a, b and c. -/
def vecs (tag : BitVec 4) (a b c : VBits) (nulls : BitVec 32 := 0) : Inst :=
  { word := 0, a := some (.vector a tag nulls), b := some (.vector b tag 0), c := some (.vector c tag 0) }

/-- `Firing`, computed. -/
def fires (s : State) (gm : Guard) (l : List Slot) (i : Inst) : Bool :=
  s.curCtx.win.insts[s.cur.idx]? == some i && !i.issued &&
    (gm == .none || (gm == .onTrue && i.p == some (.scalar 1)) || (gm == .onFalse && i.p == some (.scalar 0))) &&
    l.all fun x => match i.slot x with
      | some .null => false
      | some _ => true
      | none => false

theorem firing_of_fires {s : State} {gm : Guard} {l : List Slot} {i : Inst} (h : fires s gm l i = true) :
    Firing s gm l i := by
  simp only [fires, Bool.and_eq_true, Bool.or_eq_true, List.all_eq_true, beq_iff_eq, Bool.not_eq_true'] at h
  obtain ⟨⟨⟨h1, h2⟩, h3⟩, h4⟩ := h
  refine ⟨h1, h2, ?_, fun x hx => ?_⟩
  · rcases h3 with (h3 | ⟨hg, hp⟩) | ⟨hg, hp⟩
    · exact .inl h3
    · exact .inr ⟨_, hp, by simp, .inl ⟨hg, rfl⟩⟩
    · exact .inr ⟨_, hp, by simp, .inr ⟨hg, rfl⟩⟩
  · have := h4 x hx
    cases h : i.slot x with
    | none => simp [h] at this
    | some t => exact ⟨t, rfl, by rintro rfl; simp [h] at this⟩

/-- A context that can take a trap: it is in no handler, TVEC is an address of its pool and TSAVE a good save area. -/
def trapCtx : Ctx := { regs := { tvec := 0x1000, tsave := 0x2000 } }

/-! ### Witnesses of the obligations' hypotheses -/

theorem witness_IntegerArithmeticResults : Firing (at0 (scal 5 0)) .none [.a, .b] (scal 5 0) ∧
    Firing (at0 (scal 5)) .none [.a] (scal 5) := ⟨firing_of_fires (by decide), firing_of_fires (by decide)⟩

theorem witness_ImmediateAndLeaResults : Firing (at0 (scal 5)) .none [.a] (scal 5) ∧
    Firing (at0 (scal 5 7)) .none [.a, .b] (scal 5 7) := ⟨firing_of_fires (by decide), firing_of_fires (by decide)⟩

theorem witness_LogicAndPredicateResults : Firing (at0 (scal 5 64)) .none [.a, .b] (scal 5 64) ∧
    Firing (at0 (scal 5)) .none [.a] (scal 5) ∧ Firing (at0 (scal 5 0x4008 9)) .none [.a, .b, .c] (scal 5 0x4008 9) ∧
    (let i : Inst := { word := 0, a := some .null, p := some (.scalar 0) }
     Firing (at0 i) .onFalse [] i ∧ i.a = some .null) :=
  ⟨firing_of_fires (by decide), firing_of_fires (by decide), firing_of_fires (by decide), firing_of_fires (by decide), rfl⟩

theorem witness_MoveResults : Firing (at0 (scal 5)) .none [.a] (scal 5) ∧ Firing (at0 (scal 5)) .none [] (scal 5) ∧
    (7 : BitVec 4).toNat < 8 := ⟨firing_of_fires (by decide), firing_of_fires (by decide), by decide⟩

/-- At number 0x1F below supervisor level, at 0x20 on it; the traps at 0x20 and at 5 and 8. -/
theorem witness_ControlRegisterReadAndPrivilege :
    let s := at0 (scal 5) trapCtx
    let u := at0 (scal 5) { task := { sup := true } }
    Firing s .none [.a] (scal 5) ∧ Firing u .none [] (scal 5) ∧ (0x1F : BitVec 24).toNat % 256 < 0x20 ∧
    u.curCtx.task.sup = true ∧ TrapReady s ∧ Mem.wf s.mem = true ∧ s.curCtx.task.sup = false ∧
    0x20 ≤ (0x20 : BitVec 24).toNat % 256 ∧ 5 ≤ (8 : BitVec 24).toNat % 256 :=
  ⟨firing_of_fires (by decide), firing_of_fires (by decide), by decide, by decide, ⟨by decide, by decide, by decide, by decide, by decide⟩,
    by decide, by decide, by decide, by decide⟩

/-- FMODE below supervisor level, the values at the ends of the checks of STEALDOM, PARTW, ASID, RWTB and PAGERQ on it, and
each register read back. -/
theorem witness_ControlRegisterWriteReadsBack :
    let u := at0 (scal 0x80440) { task := { sup := true } }
    Firing (at0 (scal 5)) .none [.a] (scal 5) ∧ Firing u .none [.a] (scal 0x80440) ∧ u.curCtx.task.sup = true ∧
    (4 : Word).toNat ≤ 4 ∧ (partwOk 0x80440 = true ∧ holdsOthers u u.cur.core u.cur.ctx = false) ∧
    (let s : State := { u with parts := [(0, { map := [0], abase := 3, acount := 2 })] }
     (0xFFFFFFFFF004 : Word).toNat < 2 ^ 48 ∧ (s.partRec 0).abase ≤ (0xFFFFFFFFF004 : Word).toNat % 4096 ∧
       (0xFFFFFFFFF004 : Word).toNat % 4096 < (s.partRec 0).abase + (s.partRec 0).acount) ∧
    (0x1FF00 : Word).toNat % 32 = 0 ∧ (0x1FF00 : Word).toNat + 256 ≤ poolSize ∧
    ctrlNumber 0 = true ∧ ctrlNumber 9 = true ∧ ctrlNumber 0x20 = true ∧ ctrlNumber 0x4F = true :=
  ⟨firing_of_fires (by decide), firing_of_fires (by decide), by decide, by decide, by decide, by decide, by decide, by decide,
    by decide, by decide, by decide, by decide⟩

/-- SIGCHK of the value and of another; a stream closed, all open, and a handle that is not one. -/
theorem witness_SignatureCheckAndRandomStreams :
    let some4 : Regs := { xsig := 5, streams := Vector.replicate 4 { isOpen := true, key := 7 } }
    let c : Ctx := { regs := some4, win := { snap := { regs := some4 } } }
    let s := at0 (scal 5) c
    let u := at0 (scal 3) c
    Firing s .none [.a] (scal 5) ∧ (scal 5).tok .a = .scalar s.curCtx.win.snap.regs.xsig ∧
    Firing u .none [.a, .b] (scal 3) ∧ ((scal 3).tok .a).word ≠ u.curCtx.win.snap.regs.xsig ∧ u.curCtx.task.sigRetry ≠ some u.curCtx.win.addr ∧
    { u.curCtx.task with sigRetry := some 0 }.sigRetry = some u.curCtx.win.addr ∧
    Ctx.loadsOut { u.curCtx with accs := dropBlock u.curCtx } = false ∧
    (∀ k, ∀ hk : k < 4, u.curCtx.regs.streams[k].isOpen = true) ∧ ((scal 3).tok .a).word.toNat < 4 ∧
    (let t := at0 (scal 4) trapCtx
     t.curCtx.regs.streams[0].isOpen = false ∧ Firing t .none [.a, .b] (scal 4) ∧ TrapReady t ∧ Mem.wf t.mem = true ∧
       4 ≤ ((scal 4).tok .a).word.toNat) :=
  ⟨firing_of_fires (by decide), by decide, firing_of_fires (by decide), by decide, by decide, by decide, by decide, by decide, by decide,
    by decide, firing_of_fires (by decide), ⟨by decide, by decide, by decide, by decide, by decide⟩, by decide, by decide⟩

/-- A deque with 63 and with 64 records. -/
theorem witness_ForkAndPause :
    let r : DequeRec := { entry := 0, arg0 := 0, arg1 := 0, join := 0, gtid := 1, domain := 0, stamp := 0, launch := 0 }
    let s := fun n => at0 (scal 5) {} { State.reset with cores := [(0, { deque := List.replicate n r })] }
    Firing (s 63) .none [.a, .b, .c] (scal 5) ∧ ((s 63).core 0).deque.length < 64 ∧
    Firing (s 64) .none [.a, .b, .c] (scal 5) ∧ 64 ≤ ((s 64).core 0).deque.length ∧ Firing (s 64) .none [] (scal 5) :=
  ⟨firing_of_fires (by decide), by decide, firing_of_fires (by decide), by decide, firing_of_fires (by decide)⟩

theorem witness_FloatArithmeticResults : Firing (at0 (scal 5 3 2)) .none [.a, .b, .c] (scal 5 3 2) ∧
    Firing (at0 (scal 5 3)) .none [.a, .b] (scal 5 3) ∧ Firing (at0 (scal 5)) .none [.a] (scal 5) :=
  ⟨firing_of_fires (by decide), firing_of_fires (by decide), firing_of_fires (by decide)⟩

/-- The least positive F16 and the value 1, finite; their roots toward both sides finite. -/
theorem witness_FloatExactValues : (f16.decode 1).rat? = some (ratOf false 1 (-24)) ∧ f16 ∈ floatFmts ∧
    1 < 2 ^ f16.width ∧ f16.decode 1 = .fin false 1 (-24) ∧
    ((f16.decode (f16.sqrt .rdn false (f16.decode 1))).rat?).isSome = true ∧
    ((f16.decode (f16.sqrt .rup false (f16.decode 1))).rat?).isSome = true := by decide +kernel

/-- A third in E4M3: finite toward both sides; the pattern of −0. -/
theorem witness_RoundingIsCorrect : e4m3 ∈ floatFmts ∧
    ((e4m3.decode (e4m3.round .rdn false true 1 3 0)).rat?).isSome = true ∧
    ((e4m3.decode (e4m3.round .rup false true 1 3 0)).rat?).isSome = true ∧
    0x80 < 2 ^ e4m3.width ∧ (e4m3.decode 0x80).isNan = false := by decide +kernel

theorem witness_FloatArithmeticResults_nan : f32 ∈ floatFmts ∧ 0x7FC00000 < 2 ^ f32.width ∧
    (f32.decode 0x7FC00000).isNan = true := by decide +kernel

/-- Both widths; a NaN; 1 and 2, each less or greater than the other. -/
theorem witness_FloatSignCompareResults :
    let i := scal 0x3F800000 0x40000000
    Firing (at0 i) .none [.a, .b] i ∧ Firing (at0 i) .none [.a] i ∧ (f32.decode 0x7FC00000).isNan = true ∧
    (f32.decode 0x3F800000).rat? = some 1 ∧ (f32.decode 0x40000000).rat? = some 2 ∧ (1 : Rat) < 2 :=
  ⟨firing_of_fires (by decide), firing_of_fires (by decide), by decide +kernel, by decide +kernel, by decide +kernel, by decide +kernel⟩

/-- An F32 to F16, an F32 NaN to I32, 1.0 to I8, FX32 and a triad. -/
theorem witness_ConversionResult : Firing (at0 (scal 0x3F800000)) .none [.a] (scal 0x3F800000) ∧
    floatOf 8 = some f16 ∧ (decodeTag 6 0x7FC00000).isNan = true ∧ floatOf 3 = none ∧
    (∃ sg m e, decodeTag 6 0x3F800000 = .fin sg m e) :=
  ⟨firing_of_fires (by decide), by decide +kernel, by decide +kernel, by decide +kernel, false, 8388608, -23, by decide +kernel⟩

/-- I8 and I64 lanes, one null, and FX32. -/
theorem witness_VectorIntegerAndFixedPointLanes :
    let i := vecs 1 0x80 0x01 0x7F 0x80000000
    let j := vecs 4 5 6 7
    let k := vecs 11 0x7FFFFFFF 0x10000 1
    Firing (at0 i) .none [.a, .b, .c] i ∧ tagIs 1 (i.tok .a) = true ∧ tagIs 1 (i.tok .b) = true ∧ tagIs 1 (i.tok .c) = true ∧
    Firing (at0 j) .none [.a, .b, .c] j ∧ tagIs 4 (j.tok .a) = true ∧ tagIs 4 (j.tok .b) = true ∧ tagIs 4 (j.tok .c) = true ∧
    Firing (at0 k) .none [.a, .b, .c] k ∧ tagIs 11 (k.tok .a) = true ∧ tagIs 11 (k.tok .b) = true ∧
    tagIs 11 (k.tok .c) = true ∧ Firing (at0 i) .none [.a, .b] i ∧ Firing (at0 i) .none [.a] i :=
  ⟨firing_of_fires (by decide), by decide, by decide, by decide, firing_of_fires (by decide), by decide, by decide, by decide,
    firing_of_fires (by decide), by decide, by decide, by decide, firing_of_fires (by decide), firing_of_fires (by decide)⟩

theorem witness_VectorFloatLanes :
    let i := vecs 7 0x3F80 0x4000 0xBF80 1
    floatOf (7 : BitVec 4).toNat = some bf16 ∧ Firing (at0 i) .none [.a, .b, .c] i ∧ tagIs 7 (i.tok .a) = true ∧
    tagIs 7 (i.tok .b) = true ∧ tagIs 7 (i.tok .c) = true ∧ Firing (at0 i) .none [.a, .b] i ∧ Firing (at0 i) .none [.a] i :=
  ⟨rfl, firing_of_fires (by decide), by decide, by decide, by decide, firing_of_fires (by decide), firing_of_fires (by decide)⟩

/-- An I16 operand of a form on I8; two I64 vectors compared, F16 lanes with a NaN and two finite values; a choice and a mask. -/
theorem witness_VectorTagTrapAndSelect :
    let i := vecs 2 1 2 3
    let j := vecs 4 1 2 3 1
    let k := vecs 8 0x3C007E00 0x40003C00 0
    (let s := at0 i trapCtx
     TrapReady s ∧ Mem.wf s.mem = true ∧ Firing s .none [.a, .b, .c] i ∧ tagIs 1 (i.tok .a) = false ∧
       Firing s .none [.a, .b] i ∧ Firing s .none [.a] i) ∧
    (Firing (at0 j) .none [.a, .b, .c] j ∧ notNone (j.tok .a) = true ∧ notNone (j.tok .b) = true ∧
      (j.tok .a).tag = (j.tok .b).tag ∧ nullAt (j.tok .a) 0 = true ∧ nullAt (j.tok .a) 3 = false) ∧
    (Firing (at0 k) .none [.a, .b] k ∧ (k.tok .a).tag = (k.tok .b).tag ∧ floatOf 8 = some f16 ∧
      (f16.decode (k.lane .a 16 0).toNat).isNan = true ∧ (f16.decode (k.lane .a 16 1).toNat).rat? = some 1 ∧
      (f16.decode (k.lane .b 16 1).toNat).rat? = some 2) ∧
    tagIs 4 (j.tok .a) = true ∧ tagIs 4 (j.tok .b) = true :=
  ⟨⟨⟨by decide, by decide, by decide, by decide, by decide⟩, by decide, firing_of_fires (by decide), by decide,
      firing_of_fires (by decide), firing_of_fires (by decide)⟩,
    ⟨firing_of_fires (by decide), by decide, by decide, by decide, by decide, by decide⟩,
    ⟨firing_of_fires (by decide), by decide, rfl, by decide +kernel, by decide +kernel, by decide +kernel⟩, by decide, by decide⟩

theorem witness_VectorTriads :
    let i := vecs 12 0x3 0x4 0
    Firing (at0 i) .none [.a, .b] i ∧ tagIs 12 (i.tok .a) = true ∧ tagIs 12 (i.tok .b) = true ∧
    (-536870400 : Int) ≤ -536870400 ∧ (536870399 : Int) ≤ 536870399 :=
  ⟨firing_of_fires (by decide), by decide, by decide, by decide, by decide⟩

/-- A source of the target's own tag, of another, and VSCALE by a scalar of −2^63. -/
theorem witness_VectorConversion :
    let i := vecs 6 0x3F800000 0 0
    let j : Inst := { word := 0, a := some (.vector 0x3C00 8 0), b := some (.scalar 0x8000000000000000) }
    Firing (at0 i) .none [.a] i ∧ notNone (i.tok .a) = true ∧ (i.tok .a).tag.toNat ≤ 12 ∧ (i.tok .a).tag = 6 ∧
    (i.tok .a).tag ≠ 7 ∧ Firing (at0 j) .none [.a, .b] j ∧ floatOf (8 : BitVec 4).toNat = some f16 ∧ tagIs 8 (j.tok .a) = true :=
  ⟨firing_of_fires (by decide), by decide, by decide, by decide, by decide, firing_of_fires (by decide), rfl, by decide⟩

/-- I8, I64, FX32 and F64 lanes; a lane taken out null and not null, and one put in. -/
theorem witness_VectorReductionsAndDataMovement :
    let i := fun t => vecs t 1 2 3 1
    let j : Inst := { word := 0, a := some (.vector 5 4 0), b := some (.scalar 9) }
    Firing (at0 (i 1)) .none [.a, .b] (i 1) ∧ tagIs 1 ((i 1).tok .a) = true ∧ tagIs 1 ((i 1).tok .b) = true ∧
    Firing (at0 (i 4)) .none [.a] (i 4) ∧ tagIs 4 ((i 4).tok .a) = true ∧
    Firing (at0 (i 11)) .none [.a] (i 11) ∧ tagIs 11 ((i 11).tok .a) = true ∧
    Firing (at0 (i 5)) .none [.a, .b] (i 5) ∧ tagIs 5 ((i 5).tok .a) = true ∧ tagIs 5 ((i 5).tok .b) = true ∧
    floatOf (5 : BitVec 4).toNat = some f64 ∧ ((i 4).tok .a).nulls.getLsbD 0 = true ∧
    Firing (at0 j) .none [.a, .b] j ∧ notNone (j.tok .a) = true ∧ (j.tok .a).nulls.getLsbD 3 = false :=
  ⟨firing_of_fires (by decide), by decide, by decide, firing_of_fires (by decide), by decide, firing_of_fires (by decide), by decide,
    firing_of_fires (by decide), by decide, by decide, rfl, by decide, firing_of_fires (by decide), by decide, by decide⟩

/-- A CORE address of logical core 0 of a partition of one cluster. -/
def onePart (s : State) : State := { s with parts := [(0, { map := [0] })] }

/-- MIG to LOCAL, FAR and CORE, RFE in a handler, HALT at supervisor level. -/
theorem witness_ExitResults :
    let i := fun a => scal a
    let s := fun a => onePart (at0 (i a))
    Firing (s 0x40) .none [] (i 0x40) ∧ (s 0x40).curCtx.win.exits = [] ∧ Firing (s 0x40) .none [.a] (i 0x40) ∧
    ((i 0x40).tok .a).word.toNat / 2 ^ 60 = 0 ∧ ((i 0x8000000000000000).tok .a).word.toNat / 2 ^ 60 = 8 ∧
    (0x1000000000000040 : Word).toNat / 2 ^ 60 = 1 ∧ (∃ id off, classify 0x1000000000000040 1 = .core id off ∧
      ((s 0).phys ((s 0).partOf 0) id).isSome = true) ∧
    (let c : Ctx := { regs := { hf := true, tsave := 0x2000 }, win := { snap := { regs := { tsave := 0x2000 } } }, task := { sup := true } }
     let u := at0 (i 1) c
     Firing u .none [] (i 1) ∧ u.curCtx.win.exits = [] ∧ u.curCtx.regs.hf = true ∧
       tsaveOk u.curCtx.win.snap.regs.tsave = true ∧ u.curCtx.task.sup = true) :=
  ⟨firing_of_fires (by decide), by decide, firing_of_fires (by decide), by decide, by decide, by decide, ⟨0, 0x40, by decide, by decide⟩,
    firing_of_fires (by decide), by decide, by decide, by decide, by decide⟩

/-- A block that has its exit; MIG to prefix 2 and to core 8 of a partition of one cluster; RFE in a handler whose TSAVE is 0. -/
theorem witness_ExitsThatTrap :
    let i := fun a => scal a
    (let s := at0 (i 0) { win := { exits := [{ idx := 3 }] } }
     Firing s .none [] (i 0) ∧ s.curCtx.win.exits ≠ [] ∧ Ctx.loadsOut { s.curCtx with accs := dropBlock s.curCtx } = false) ∧
    (let s := onePart (at0 (i 0x2000000000000000) trapCtx)
     Firing s .none [.a] (i 0x2000000000000000) ∧ TrapReady s ∧ Mem.wf s.mem = true ∧ s.curCtx.task.sup = false ∧
     (0x2000000000000000 : Word).toNat / 2 ^ 60 ≠ 0 ∧ (0x2000000000000000 : Word).toNat / 2 ^ 60 ≠ 8 ∧
     (0x2000000000000000 : Word).toNat / 2 ^ 60 ≠ 1 ∧ Firing s .none [] (i 0x2000000000000000) ∧
     ∃ a id off, a.toNat / 2 ^ 60 = 1 ∧ classify a 1 = .core id off ∧ s.phys (s.partOf 0) id = none) ∧
    (let s := at0 (i 0) { regs := { hf := true } }
     Firing s .none [] (i 0) ∧ s.curCtx.regs.hf = true ∧ tsaveOk s.curCtx.win.snap.regs.tsave = false ∧
       Ctx.loadsOut { s.curCtx with accs := dropBlock s.curCtx } = false) :=
  ⟨⟨firing_of_fires (by decide), by decide, by decide⟩,
    ⟨firing_of_fires (by decide), ⟨by decide, by decide, by decide, by decide, by decide⟩, by decide, by decide, by decide, by decide, by decide,
      firing_of_fires (by decide), 0x1000004000000000, 8, 0, by decide, by decide, by decide⟩,
    ⟨firing_of_fires (by decide), by decide, by decide, by decide⟩⟩

theorem witness_Breakpoint :
    let s := onePart (at0 (scal 0))
    let u : State := { at0 (scal 0) with parts := [(0, { map := [0], attached := true })] }
    Firing s .none [] (scal 0) ∧ (s.partRec 0).attached = false ∧ Firing u .none [] (scal 0) ∧
    (u.partRec 0).attached = true ∧ u.curCtx.win.skip.bkpt = false ∧
    Ctx.loadsOut { u.curCtx with accs := dropBlock u.curCtx } = false :=
  ⟨firing_of_fires (by decide), by decide, firing_of_fires (by decide), by decide, by decide, by decide⟩

/-- A region that admits every access of every context of the pool. -/
def openLpu : Word := 0xFFFFFFFFFE000000

/-- A context whose block met that region. -/
def openCtx : Ctx := { win := { skip := { mig := true }, snap := { core := { lprot := Vector.replicate 8 openLpu } } } }

/-- A partition of one cluster, every core with a remote window over its whole pool. -/
def windowed (s : State) : State :=
  onePart { s with cores := [(0, {}), (1, { windows := Vector.replicate 8 (0xF0000FFFFFC00000, 0, 0) })] }

/-- The last double word but one of the own pool, and that of another core's pool. -/
theorem witness_PoolAccessesEnter :
    let i := scal 0x3BFFF0 7
    let s := windowed (at0 i openCtx)
    Firing s .none [.a, .b] i ∧ Firing s .none [.a] i ∧ Unwatched s ∧ Stays s 0x3BFFF0 true ∧
    PoolPlace s 0x3BFFF0 8 { w := true } true { home := .pool 0, addr := poolKey 0 0x3BFFF0 } ∧
    PoolPlace s 0x10000008003BFFF0 8 { w := true } true { home := .pool 1, addr := poolKey 1 0x3BFFF0, core := true } ∧
    (0x10000008003BFFF0 : Word).toNat % 8 = 0 :=
  ⟨firing_of_fires (by decide), firing_of_fires (by decide), by unfold Unwatched; decide, .inr (.inl rfl),
    .inl ⟨0x3BFFF0, by decide, by decide, rfl⟩, .inr ⟨1, 0x3BFFF0, 1, by decide, by decide, by decide, by decide⟩, by decide⟩

/-- A page that grants a load, and one in state 01 that grants a store, as a TLB entry gives it. -/
theorem witness_FarAccessesEnter :
    let e : TlbEntry := { asid := 0, part := 64, vpage := 0, big := false, pa := 0x20000, r := true, w := true, x := false,
                          at_ := true, x1 := false, st := 2, c := false, xslot := 0, ia := 0 }
    let i := scal 0x8000000000000040 7
    (∀ e' ∈ [e, { e with st := 1 }],
      let s := at0 i openCtx { State.reset with clusters := [(0, { tlb := [e'] })] }
      let s' := s.withWin fun w => w.issue s.cur.idx
      ((translate (s.cur.core / 8) (s.partOf s.cur.core) (BitVec.ofNat 12 (asidOf s.curCtx.win.snap.core.asid))
        (s1Of s.curCtx.win.snap.core.asid) 0x40).run { s := s' }).1 = .ok e' ∧ e'.r = true ∧ e'.w = true) ∧
    (let s := at0 i openCtx
     Firing s .none [.a, .b] i ∧ Unwatched s ∧ classify 0x8000000000000040 8 = .far 0x40 ∧
       (0x8000000000000040 : Word).toNat % 8 = 0) :=
  ⟨by decide +kernel, firing_of_fires (by decide), by unfold Unwatched; decide, by decide, by decide⟩

/-- 32 bytes within one block and across two; a gather and a scatter of I32 elements at I32 offsets, one with every lane
null. -/
theorem witness_VectorAccessesEnter :
    let v : Inst := { word := 0, a := some (.scalar 0x124), b := some (.vector 5 3 1), c := some (.vector 0 3 0) }
    let n : Inst := { v with b := some (.vector 5 3 0xFF) }
    let s := at0 v openCtx
    Unwatched s ∧ Firing s .none [.a, .b, .c] v ∧ Firing s .none [.a, .b] v ∧ Firing s .none [.a] v ∧
    classify 0x124 32 = .loc 0x124 ∧ classify 0x100 32 = .loc 0x100 ∧ (0x124 : Word).toNat % (tagBits 3 / 8) = 0 ∧
    lpuOk s.curCtx.win.snap.core.lprot 0 0x124 32 { w := true } = true ∧ s.curCtx.win.skip.mig = true ∧
    offsetTag (v.tok .b) = true ∧ offsetTag (v.tok .c) = true ∧
    ((List.range 8).filter fun k => !nullAt (v.tok .b) k) = [1, 2, 3, 4, 5, 6, 7] ∧
    ((List.range 8).filter fun k => !nullAt (n.tok .b) k) = [] ∧ offsetTag (n.tok .b) = true :=
  ⟨by unfold Unwatched; decide, firing_of_fires (by decide), firing_of_fires (by decide), firing_of_fires (by decide), by decide,
    by decide, by decide, by decide, by decide, by decide, by decide, by decide, by decide, by decide⟩

/-- A word and a rate set of the own pool and of another core's; RSPUT with an F32 vector. -/
theorem witness_WordAndRateFormsEnter :
    let i := scal 0x3BFFC0 7 9
    let v : Inst := { i with c := some (.vector 0 6 0) }
    let s := windowed (at0 i openCtx)
    let all : Rights := { r := true, w := true, s := true }
    Unwatched s ∧ Firing s .none [.a, .b, .c] i ∧ Firing (at0 v openCtx) .none [.a, .b, .c] v ∧ Firing s .none [] i ∧
    PoolPlace s 0x3BFFC0 8 all false { home := .pool 0, addr := poolKey 0 0x3BFFC0 } ∧
    PoolPlace s 0x100 64 all false { home := .pool 0, addr := poolKey 0 0x100 } ∧
    PoolPlace s 0x10000008003BFF00 64 all false { home := .pool 1, addr := poolKey 1 0x3BFF00, core := true } ∧
    (0x10000008003BFF00 : Word).toNat % 64 = 0 :=
  ⟨by unfold Unwatched; decide, firing_of_fires (by decide), firing_of_fires (by decide), firing_of_fires (by decide),
    .inl ⟨0x3BFFC0, by decide, by decide, rfl⟩, .inl ⟨0x100, by decide, by decide, rfl⟩,
    .inr ⟨1, 0x3BFF00, 1, by decide, by decide, by decide, by decide⟩, by decide⟩

/-- An address in no space, a FAR one, a misaligned one and one that no region admits. -/
theorem witness_AccessTraps :
    let s := at0 (scal 5 6) trapCtx
    Firing s .none [.a, .b] (scal 5 6) ∧ TrapReady s ∧ Mem.wf s.mem = true ∧ Stays s 5 true ∧
    classify 0x3BFFF9 8 = .bad ∧ classify 0x8000000000000000 8 = .far 0 ∧ classify 5 8 = .loc 5 ∧ (5 : Word).toNat % 8 ≠ 0 ∧
    lpuOk s.curCtx.win.snap.core.lprot 0 8 8 { r := true } = false :=
  ⟨firing_of_fires (by decide), ⟨by decide, by decide, by decide, by decide, by decide⟩, by decide,
    .inr (.inr fun id off h => Sp.noConfusion ((show Sp.loc 5 = classify 5 1 by decide).trans h)),
    by decide, by decide, by decide, by decide, by decide⟩

/-- PGSTAT of a FAR address and of a LOCAL one; TLBINV at supervisor level of a page, of an ASID and of scope 4, and below it. -/
theorem witness_SystemMemoryForms :
    let i := fun a => scal a
    let s := fun a b => onePart (at0 (i a) { trapCtx with task := { sup := b } })
    Firing (s 0x8000000000000040 true) .none [.a] (i 0x8000000000000040) ∧ classify 0x8000000000000040 1 = .far 0x40 ∧
    scopeOf 0x8000000000000040 0 = some (.page 0 0x40) ∧ scopeOf 0x8200000000000000 5 = some (.asid 5) ∧
    (s 0x8000000000000040 true).curCtx.task.sup = true ∧ (0x8200000000000000 : Word).toNat / 2 ^ 60 = 8 ∧
    (∀ x ∈ (s 0 true).ctxsOf 0, ∀ y ∈ ((s 0 true).ctx x.1 x.2).accs, y.far = none) ∧
    (∀ x ∈ (s 0 true).ctxsOf 0, ((s 0 true).ctx x.1 x.2).win.trans = []) ∧ (s 0 true).ctxsOf 0 = [(0, 0)] ∧
    TrapReady (s 0x40 false) ∧ Mem.wf (s 0x40 false).mem = true ∧ (s 0x40 false).curCtx.task.sup = false ∧
    (∀ va, classify 0x40 1 ≠ .far va) ∧ 4 ≤ (0x8800000000000000 : Word).toNat / 2 ^ 57 % 8 :=
  ⟨firing_of_fires (by decide), by decide, by decide, by decide, by decide, by decide, by decide, by decide, by decide,
    ⟨by decide, by decide, by decide, by decide, by decide⟩, by decide, by decide,
    fun va h => Sp.noConfusion ((show Sp.loc 0x40 = classify 0x40 1 by decide).trans h), by decide⟩

/-- The bytes of a descriptor whose completion word is at 0x200. -/
def descBytes : List Byte := bytesOf 8 0x200 ++ List.replicate 56 0

/-- A command that has, or has not, read its descriptor at 0x100, and the queue of its cluster with `n` slots used. -/
def command (w : Code) (n : Nat) (desc : Option (List Byte) := none) : State :=
  let j : Job := { engine := 2, desc := [], gtid := 1, core := 0, ctx := 0, asid := 0, part := 0, form := (0x30, 3), w := (0, 0) }
  onePart (at0 { scal 0x100 with word := w, desc := desc } openCtx
    { State.reset with mem := [(0x101, 2)], clusters := [(0, { slots := (List.range n).map fun k => (k, { job := some j }) })] })

theorem command_ready (w : Code) (n : Nat) (d : Option (List Byte)) : CommandReady (command w n d) descBytes 0 0x200 :=
  ⟨⟨{ home := .pool 0, addr := poolKey 0 0x200 }, .inl ⟨0x200, by decide +kernel,
      by show lpuOk openCtx.win.snap.core.lprot 0 0x200 8 { w := true, s := true } = true; decide +kernel, rfl⟩, rfl, rfl⟩, by decide +kernel, rfl,
    by show (0 : BitVec 24).getLsbD 4 = false; rfl, by show (0 : BitVec 24).getLsbD 5 = false; rfl⟩

/-- CPY and DNOT words whose descriptors stand in the own pool. -/
theorem witness_CommandsAccepted :
    let w : Code := 0x303001C0_30000000_00000000
    let x : Code := 0x322000C0_40000000_00000000
    Mem.wf (command w 63).mem = true ∧ decode w = some (.cpy { lsid := 1, t := { t0 := some (.greg 3) } }) ∧
      decode x = some (.dnot { t := { t0 := some (.greg 4) } }) ∧
      ∀ y ∈ [w, x], let s := command y 63
        Firing s .none [.a] { scal 0x100 with word := y } ∧ Firing s .none [.a, .b, .c] { scal 0x100 with word := y } ∧
        PoolPlace s 0x100 (descLen y.op y.sub) { r := true } false { home := .pool 0, addr := poolKey 0 0x100 } ∧ Unwatched s := by
  refine ⟨by decide, by decide, by decide, fun y hy => ?_⟩
  rcases List.mem_cons.mp hy with rfl | hy
  · exact ⟨firing_of_fires (by decide), firing_of_fires (by decide), .inl ⟨0x100, by decide, by decide, rfl⟩, rfl⟩
  · rcases List.mem_singleton.mp hy with rfl
    exact ⟨firing_of_fires (by decide), firing_of_fires (by decide), .inl ⟨0x100, by decide, by decide, rfl⟩, rfl⟩

/-- A reply with the descriptor of the command. -/
def replyTo (w : Code) (n : Nat) : State :=
  let s := command w n
  { s with
    ctxs := [(0, { s.curCtx with accs := [{ op := .desc }] })]
    net := { replies := [{ core := 0, ctx := 0, gen := 0, acc := { op := .desc }, body := .bytes descBytes }] } }

/-- In its turn, a CPY that has its descriptor with the last slot free, then none, a DNOT likewise; the reply that brings it. -/
theorem witness_FullQueueWaits :
    let w : Code := 0x303001C0_30000000_00000000
    let x : Code := 0x322000C0_40000000_00000000
    (∀ y ∈ [w, x], ∀ n ∈ [63, 64], let s := command y n (some descBytes)
      CommandReady s descBytes 0 0x200 ∧ InTurn s s.cur ∧ s.curCtx.wait = none ∧
        freeSlot (s.cluster 0) s.curCtx.task.gtid = (if n = 63 then some 63 else none)) ∧
    (let i : Inst := { scal 0x100 with word := w, desc := some descBytes }
     Firing (command w 63 (some descBytes)) .none [.a] i) ∧
    (let i : Inst := { scal 0x100 with word := x, desc := some descBytes }
     Firing (command x 63 (some descBytes)) .none [.a, .b, .c] i) ∧
    (∀ y ∈ [w, x], let s := replyTo y 63
      let c := s.ctx 0 0
      s.net.replies.map (·.body) = [.bytes descBytes] ∧ c.gen = 0 ∧ c.accs = [{ op := .desc }] ∧
        (c.win.insts[0]?).map (·.word) = some y ∧ y.info.isSome = true ∧ InTurn s ⟨0, 0, 0⟩ ∧
        let p : Reply := { core := 0, ctx := 0, gen := 0, acc := { op := .desc }, body := .bytes descBytes }
        CommandReady { s.replied p (fun u => u.described 0 descBytes) with cur := ⟨0, 0, 0⟩ } descBytes 0 0x200) := by
  refine ⟨fun y hy n hn => ⟨command_ready _ _ _, ?_, rfl, ?_⟩, firing_of_fires (by decide), firing_of_fires (by decide), fun y hy => ?_⟩
  · unfold InTurn
    simp only [List.mem_cons, List.not_mem_nil, or_false] at hy hn
    rcases hy with rfl | rfl <;> rcases hn with rfl | rfl <;> decide +kernel
  · simp only [List.mem_cons, List.not_mem_nil, or_false] at hy hn
    rcases hy with rfl | rfl <;> rcases hn with rfl | rfl <;> decide
  · simp only [List.mem_cons, List.not_mem_nil, or_false] at hy
    rcases hy with rfl | rfl <;>
      exact ⟨by decide, by decide, by decide, by decide, by decide, by unfold InTurn; decide +kernel,
        ⟨{ home := .pool 0, addr := poolKey 0 0x200 }, .inl ⟨0x200, by decide +kernel, rfl, rfl⟩, rfl, rfl⟩, by decide +kernel, rfl,
        by unfold Unwatched; rfl, by decide⟩

/-- A value that names no job, and the handle of the queued copy in slot 0. -/
theorem witness_CancelResult :
    let s := command 0 1
    let u := { s with ctxs := (at0 (scal 0x8000) openCtx).ctxs }
    Firing s .none [.a] (scal 0x100) ∧ handleSlot s 0 (s.partOf 0) 0x100 = none ∧
    Firing u .none [.a] (scal 0x8000) ∧ Mem.wf u.mem = true ∧ handleSlot u 0 (u.partOf 0) 0x8000 = some 0 ∧
    (∃ j, u.jobOf 0 0 = some j ∧ j.st = .queued ∧ j.engine = 2 ∧ (u.core j.w.1).regs.wpctl.getLsbD 5 = false) :=
  ⟨firing_of_fires (by decide), by decide, firing_of_fires (by decide), by decide, by decide,
    ⟨{ engine := 2, desc := [], gtid := 1, core := 0, ctx := 0, asid := 0, part := 0, form := (0x30, 3), w := (0, 0) },
      by decide, by decide, by decide, by decide⟩⟩

/-- The same handle of a job that runs, and of one whose completion word is on its way. -/
theorem witness_CancelResult_running : ∀ st ∈ [JobState.running, .ended],
    let j : Job := { engine := 2, desc := [], gtid := 1, core := 0, ctx := 0, asid := 0, part := 0, form := (0x30, 3), w := (0, 0) }
    let s := { command 0 1 with
      ctxs := (at0 (scal 0x8000) openCtx).ctxs
      clusters := [(0, { slots := [(0, { job := some { j with st := st } })] })] }
    Firing s .none [.a] (scal 0x8000) ∧ handleSlot s 0 (s.partOf 0) 0x8000 = some 0 ∧ (s.jobOf 0 0).map (·.st) = some st ∧
      (s.jobOf 0 0).map (·.ending) = some none := by
  intro st h
  simp only [List.mem_cons, List.not_mem_nil, or_false] at h
  rcases h with rfl | rfl <;> exact ⟨firing_of_fires (by decide), by decide, by decide, by decide⟩

/-- A header of a block of n + 1 instructions. -/
def hdr (n : Nat) (sig : Nat := 0) : Code := BitVec.ofNat 96 (0xB7 * 2 ^ 88 + n * 2 ^ 82 + sig)

/-- The executable page of the next states: VA 0x40000 at PA 0x20000. -/
def execPage : TlbEntry :=
  { asid := 0, part := 0, vpage := 4, big := false, pa := 0x20000, r := true, w := false, x := true, at_ := true, x1 := true, st := 2,
    c := false, xslot := 0, ia := 0 }

/-- A context about to fetch the block at VA 0x40000, which holds one BRA, with the page in the TLB, its start bit set and
`code` in the code cache; the debugger's last release named this block. -/
def fetching (ph : Phase) (code : List CodeLine) : State :=
  { withCtx { status := .active, phase := ph, task := { skip := { blk := 0x8000000000040000, brk := true } } } with
    clusters := [(0, { tlb := [execPage], code := code, regs := { pagerq := 0x1000000000010000 } })]
    parts := [(0, { map := [0], sup := true })]
    mem := [(farKey 0, 1), (farKey 0x2000B, 0xB7), (farKey 0x2000C, 0x0F), (farKey 0x20017, 7)] }

/-- A line of that block, with an error that ECC corrects. -/
def fetchedLine : CodeLine :=
  { line := 0x800, data := List.replicate 11 0 ++ [0xB7, 0x0F] ++ List.replicate 10 0 ++ [7] ++ List.replicate 40 0, err := .single }

/-- The state once the fetch has taken its slot. -/
def fetchSlot (code : List CodeLine) : State :=
  let s := fetching (.fetch 0x8000000000040000 0) code
  applyAll [.ctx 0 0 { s.ctx 0 0 with lastSlot := some s.clk.toNat }, .log true 0 0x06 0 1] s

def fetched (s : State) : Option Nat × Run := (fetchTarget 0 0 0x8000000000040000 (s.core 0).regs.asid).run { s := s }

/-- A fetch with no line. -/
theorem witness_FetchAndTokens_missing :
    let s := fetching (.fetch 0x8000000000040000 0) []
    (s.ctx 0 0).phase = .fetch 0x8000000000040000 0 ∧ (s.ctx 0 0).status = .active ∧ (s.ctx 0 0).busy ≤ s.clk.toNat ∧
    slotOpen (s.ctx 0 0) 0 s.clk.toNat = true ∧
    (s.ctx 0 0).lost = none ∧ startsBlocks (s.partRec 0) = true ∧ ((s.ctx 0 0).skipsNow 0x8000000000040000).brk = true ∧
    breakMatch (s.partRec 0) 0x8000000000040000 0 = [] ∧ (fetched (fetchSlot [])).1 = some 0x20000 ∧
    codeHit ((fetched (fetchSlot [])).2.s.cluster 0) 0x20000 = false :=
  ⟨rfl, rfl, by decide, by decide, rfl, by decide, by decide, by decide, by decide +kernel, by decide +kernel⟩

/-- A fetch with its line. -/
theorem witness_FetchAndTokens_present :
    let k := (fetched (fetchSlot [fetchedLine])).2.s.cluster 0
    (fetched (fetchSlot [fetchedLine])).1 = some 0x20000 ∧ codeHit k 0x20000 = true ∧
    k.code.map (·.err) = [.single] ∧ blockBytes k 0x20000 = 24 ∧
    wordsAt (codeRead k 0x20000 24) 2 = [hdr 0, 0x07000000_00000000_0000000F] ∧ (hdr 0).isHeader = true ∧
    (decode 0x07000000_00000000_0000000F#96).isSome = true :=
  ⟨by decide +kernel, by decide +kernel, by decide +kernel, by decide +kernel, by decide +kernel, by decide, by decide⟩

/-- A fill. -/
theorem witness_FetchAndTokens_fill :
    let s := fetching (.fill 0x8000000000040000) []
    (s.ctx 0 0).phase = .fill 0x8000000000040000 ∧ (s.ctx 0 0).status = .active ∧ startsBlocks (s.partRec 0) = true ∧
    (fetched s).1 = some 0x20000 ∧
    (s.cluster 0).code = [] ∧ codeAt s.mem (farKey 0x20000) = hdr 0 ∧ (hdr 0).len = 0 ∧
    codeAt s.mem (farKey 0x2000C) = 0x07000000_00000000_0000000F :=
  ⟨rfl, rfl, by decide, by decide +kernel, rfl, by decide +kernel, by decide, by decide +kernel⟩

/-- Two tokens, one due. -/
theorem witness_FetchAndTokens_tokens :
    let w : Window := { insts := [scal 0], flights := [⟨0, .a, 0, .scalar 7⟩, ⟨16, .b, 0, .scalar 8⟩] }
    ((withCtx { win := w }).ctx 0 0).win = w ∧ ∃ f ∈ w.flights, f.due ≤ (withCtx { win := w }).clk.toNat :=
  ⟨rfl, ⟨0, .a, 0, .scalar 7⟩, by decide, by decide⟩

/-- A register without a delivery, one with two, a v register with one byte null. -/
theorem witness_CommitWritesRegisters :
    let w : Window := { outs := [⟨0, 0, false, 15, .scalar 1⟩, ⟨1, 1, false, 15, .scalar 2⟩, ⟨2, 2, true, 7, .vector 5 1 1⟩] }
    (∀ o ∈ w.outs, o.vec = false → o.n = 0 → o.tok = .null) ∧
    (∀ p ∈ w.outs, p.vec = false → p.n = 15 → p.tok = .null ∨ p = ⟨1, 1, false, 15, .scalar 2⟩ ∨ p.seq < 1) ∧
    (∀ o ∈ w.outs, o.vec = true → o.n = 0 → o.tok = .null) ∧ allNull (.vector 5 1 1) = false ∧
    (∀ p ∈ w.outs, p.vec = true → p.n = 7 → p.tok = .null ∨ p = ⟨2, 2, true, 7, .vector 5 1 1⟩ ∨ p.seq < 2) := by decide

/-- A complete block of one instruction, an exit that has fired, or with none. -/
def completed (w : Code) (a : Word := 0) (hasExit : Bool := true) (sum : BitVec 16 := 0) : State :=
  let i : Inst := { word := w, issued := true, fired := true, resolved := true }
  onePart (withCtx { trapCtx with status := .active, phase := .run, win := {
    addr := 0x8000000000040000, header := hdr 0 5, insts := [i], sum := sum, exits := if hasExit then [⟨0, a⟩] else [] } })

/-- A slot of context 0 at clock 0. -/
theorem slot_of {s : State} (h : ((s.ctx 0 0).status == .active && slotOpen (s.ctx 0 0) 0 s.clk.toNat &&
    decide ((s.ctx 0 0).busy ≤ s.clk.toNat) && !s.niFull 0 0) = true) : SlotFor s 0 0 := by
  simp only [Bool.and_eq_true, beq_iff_eq, Bool.not_eq_true', decide_eq_true_eq] at h
  exact ⟨h.1.1.1, h.1.1.2, h.1.2, h.2⟩

/-- `Committing` of a plain block, computed. -/
theorem committing_of {s : State} {e : ExitFired} {x : Instr} (h : SlotFor s 0 0)
    (k : ((s.ctx 0 0).complete && !(s.ctx 0 0).win.sigBad && (stackBelow (s.ctx 0 0).win).isNone && (s.ctx 0 0).lost.isNone &&
      (s.ctx 0 0).win.exits == [e] && ((s.ctx 0 0).win.insts[e.idx]?).bind (fun i => decode i.word) == some x) = true) :
    Committing s 0 0 e x := by
  simp only [Bool.and_eq_true, beq_iff_eq, Bool.not_eq_true', Option.isNone_iff_eq_none] at k
  obtain ⟨⟨⟨⟨⟨k1, k2⟩, k3⟩, k4⟩, k5⟩, k6⟩ := k
  exact ⟨h, k1, .inr ⟨k2, k3, k4⟩, k5, k6⟩

/-- Each exit; MIG to core 1; RFE; TRAP with a handler. -/
theorem witness_CommitOutcomes :
    Committing (completed 0x07000000_00000000_0000000F 0 true 5) 0 0 ⟨0, 0⟩ (.bra { z := 15 }) ∧
    Committing (completed 0x072000C0_D0000000_00000010 0 true 5) 0 0 ⟨0, 0⟩ (.call { t0 := some (.greg 13), z := 16 }) ∧
    Committing (completed 0x07100000_00000000_02000000 64 true 5) 0 0 ⟨0, 64⟩ (.jmp { exit := 2 }) ∧
    Committing (completed 0x07300000_00000000_00000000 64 true 5) 0 0 ⟨0, 64⟩ (.ret {}) ∧
    Committing (completed 0x07400000_00000000_00000000 0 true 5) 0 0 ⟨0, 0⟩ (.tend {}) ∧
    Committing (completed 0x38203F00_00000000_00000000 0 true 5) 0 0 ⟨0, 0⟩ (.halt {}) ∧
    (let s := completed 0x07600000_00000000_00000000 0x1000000800000000 true 5
     Committing s 0 0 ⟨0, 0x1000000800000000⟩ (.mig {}) ∧ classify 0x1000000800000000 1 = .core 1 0 ∧
       s.phys (s.partOf 0) 1 = some 1 ∧ declines ((s.ctx 0 0).win.regsAfter (s.ctx 0 0).regs 0) = false ∧ (s.ctx 0 0).accs = []) ∧
    (let s := completed 0x38003F00_00000000_00000001 1 true 5
     Committing s 0 0 ⟨0, 1⟩ (.rfe { z := 1 }) ∧ (∀ a ∈ (s.ctx 0 0).accs, a.isStore = false)) ∧
    (let s := completed 0x07500000_00000000_00000005 0 true 5
     let r := (s.ctx 0 0).win.regsAfter (s.ctx 0 0).regs 0
     Committing s 0 0 ⟨0, 0⟩ (.trap { z := 5 }) ∧ (s.ctx 0 0).accs = [] ∧ Mem.wf s.mem = true ∧ r.hf = false ∧ r.tvec ≠ 0 ∧
       tsaveOk r.tsave = true) :=
  ⟨committing_of (slot_of (by decide)) (by decide), committing_of (slot_of (by decide)) (by decide),
    committing_of (slot_of (by decide)) (by decide), committing_of (slot_of (by decide)) (by decide),
    committing_of (slot_of (by decide)) (by decide), committing_of (slot_of (by decide)) (by decide),
    ⟨committing_of (slot_of (by decide)) (by decide), by decide, by decide, by decide, by decide⟩,
    ⟨committing_of (slot_of (by decide)) (by decide), by decide⟩,
    ⟨committing_of (slot_of (by decide)) (by decide), by decide, by decide, by decide, by decide, by decide⟩⟩

/-- A sync block past its commit point, which holds an MTC to FMODE, to the cluster's PAGERQ, to a counter, to PARTW and to
RWTB. -/
theorem witness_CommitOutcomes_mtc : ∀ n ∈ [(0 : BitVec 8), 0x2B, 0x34, 0x20, 0x2A],
    let s := completed 0x07000000_00000000_0000000F 0 true 5
    let c := s.ctx 0 0
    let mtc : Inst := { word := BitVec.ofNat 96 (0x05600000_00000000_00000000 + n.toNat), issued := true, fired := true, resolved := true }
    let s' := withCtx { c with win := { c.win with header := hdr 0 (2 ^ 23 + 5), insts := c.win.insts ++ [mtc], mtc := some (n, 0), committed := true } } s
    Committing s' 0 0 ⟨0, 0⟩ (.bra { z := 15 }) ∧ (s'.ctx 0 0).win.mtc = some (n, 0) ∧
      (s'.ctx 0 0).win.commitPoint = some 1 := by
  intro n hn
  simp only [List.mem_cons, List.not_mem_nil, or_false] at hn
  rcases hn with rfl | rfl | rfl | rfl | rfl <;>
    exact ⟨committing_of (slot_of (by decide)) (by decide), by decide, by decide⟩

/-- A signature that differs, a first and a second time; a write of 4 to g14 with SLIMIT 5; no exit; a lost store; and a sync
block at its commit point. -/
theorem witness_CommitOutcomes_checks :
    (let s := completed 0x07000000_00000000_0000000F
     let c := s.ctx 0 0
     SlotFor s 0 0 ∧ c.complete = true ∧ c.win.commitPoint = none ∧ (∀ a ∈ c.accs, a.dead = false) ∧
       c.win.exits = [⟨0, 0⟩] ∧ c.win.sigBad = true ∧ c.task.sigRetry ≠ some c.win.addr ∧
       { c.task with sigRetry := some c.win.addr }.sigRetry = some c.win.addr) ∧
    (let s := completed 0x07000000_00000000_0000000F 0 true 5
     let c := s.ctx 0 0
     let s' := withCtx { c with win := { c.win with outs := [⟨0, 0, false, 14, .scalar 4⟩], snap := { regs := { slimit := 5 } } } } s
     let c' := s'.ctx 0 0
     SlotFor s' 0 0 ∧ c'.complete = true ∧ c'.win.sigBad = false ∧ stackBelow c'.win = some (4, 0) ∧ Mem.wf s'.mem = true ∧
       c'.win.commitPoint = none ∧ c'.win.exits = [⟨0, 0⟩] ∧ TrapReady { s' with cur := ⟨0, 0, 0⟩ }) ∧
    (let s := completed 0x07000000_00000000_0000000F 0 false 5
     let c := s.ctx 0 0
     SlotFor s 0 0 ∧ c.complete = true ∧ ∀ e, c.win.exits ≠ [e]) ∧
    (let s := completed 0x07000000_00000000_0000000F 0 true 5
     let c := s.ctx 0 0
     let st : Access := { rank := 3, blk := c.blk, cls := .strong, op := .store [some 1] }
     let s' := withCtx { c with lost := some (0, 0), accs := [st] } s
     let c' := s'.ctx 0 0
     SlotFor s' 0 0 ∧ c'.complete = true ∧ (∀ a ∈ c'.accs, a.dead = false) ∧ c'.win.sigBad = false ∧ stackBelow c'.win = none ∧
       c'.lost.isSome = true ∧ c'.strongStore = true) ∧
    (let i : Inst := { word := 0x21100000_00000000_00000000, a := some (.scalar 8) }
     let s := withCtx { status := .active, phase := .run, win := { header := hdr 0 (2 ^ 23 + 5), insts := [i] } }
     let c := s.ctx 0 0
     SlotFor s 0 0 ∧ c.complete = false ∧ c.pointFails = true ∧ c.win.sigBad = true) := by
  refine ⟨⟨slot_of (by decide), by decide⟩, ⟨slot_of (by decide), by decide, by decide, by decide, by decide, by decide, by decide,
    ⟨by decide, by decide, by decide, by decide, by decide⟩⟩, ⟨slot_of (by decide), by decide, fun e h => by cases h⟩,
    ⟨slot_of (by decide), by decide⟩, ⟨slot_of (by decide), by decide⟩⟩

/-- An aborted block's trap, a terminated task and a task at its end. -/
theorem witness_TaskEnds :
    (let s := withCtx { trapCtx with status := .active, phase := .after (.trap 0x02 5 0x8000000000040000 3 0) }
     let c := s.ctx 0 0
     Mem.wf s.mem = true ∧ c.phase = .after (.trap 0x02 5 0x8000000000040000 3 0) ∧ c.loadsOut = false ∧ c.status = .active ∧
       c.regs.hf = false ∧ c.regs.tvec ≠ 0 ∧ tsaveOk c.regs.tsave = true ∧ c.storesOut = false) ∧
    (∀ ph ∈ [Phase.killing, .ending], let c := (withCtx { status := .active, phase := ph }).ctx 0 0
      c.phase = ph ∧ c.accs = [] ∧ c.status = .active) := by decide

theorem witness_RecordsRestore : ({ blk := 0, gtid := 0, kind := 7, core := 0 } : RecInfo).kind < 8 := by decide

/-- A context that waits, with this wait. -/
def waiting (w : Wait) (clk : Word := 0) (ph : Phase := .run) : State :=
  { onePart (withCtx { status := .active, phase := ph, wait := some w }) with clk := clk }

def aWait : Wait := { on := .form, idx := 0, acc := { op := .ldf, home := .pool 0 }, start := 0, parkAt := 0 }

/-- A task parked in slot 0 of core 0 on a word of core 1, woken, in the next states. -/
def aPark : PSlot :=
  { st := .parked, ctx := 0, gen := 0, task := {}, on := .form, cond := 1, home := 1, off := 8, idx := 0, clk := 0 }

def parkedAt0 (ps : PSlot) : State :=
  onePart { State.reset with cores := [(0, { regs := { partw := 0x80440 }, pslots := [(0, ps)] }),
                                       (1, { wakeTable := [(0, ⟨1, 0, 0, 0, 0, 8⟩)] })] }

/-- A retry; a resolve word FULL with 0; the spin's end; a parking attempt and its repeat. -/
theorem witness_WaitingSteps :
    (let s := waiting aWait
     (s.ctx 0 0).wait = some aWait ∧ (s.ctx 0 0).mayTry (s.partRec 0) = true ∧ slotOpen (s.ctx 0 0) 0 0 = true ∧
       aWait.expired = false ∧ aWait.on = .form ∧ aWait.start + 16 * (s.ctx 0 0).regs.wspin.toNat ≤ s.clk.toNat) ∧
    (let w := { aWait with on := .resolve 0 24 0x8000000000000000 0x8000000000040000 3 }
     let s := { waiting w 0 (.after .resolve) with sync := [(poolKey 0 24 / 8, 1)] }
     (s.ctx 0 0).mayTry (s.partRec 0) = true ∧ slotOpen (s.ctx 0 0) 0 0 = true ∧ s.nacks 0 0 = false ∧ s.errs.double = [] ∧
       (s.syncOf (poolKey 0 24 / 8)).getLsbD 0 = true ∧ Mem.read64 s.mem (poolKey 0 24) = 0) ∧
    (let w := { aWait with expired := true }
     let s := { waiting w with cores := [(0, { regs := { partw := 0x80440 } })] }
     (s.ctx 0 0).mayTry (s.partRec 0) = true ∧ w.retry = false ∧ w.parkAt ≤ s.clk.toNat ∧ w.acc.home = .pool 0 ∧
       freePark (s.core 0) = some 0 ∧ { w with retry := true }.retry = true) := by decide +kernel

theorem witness_WaitingSteps_parked :
    (let s := { parkedAt0 { aPark with st := .reserved } with ctxs := [(0, { status := .active, phase := .parkWrite 0 })] }
     Mem.wf s.mem = true ∧ (s.ctx 0 0).phase = .parkWrite 0 ∧ (s.ctx 0 0).busy ≤ s.clk.toNat ∧ s.portBusy (.pool 0) = false ∧
       ((s.core 0).pslots.find? fun x => x.1 == 0) = some (0, { aPark with st := .reserved })) ∧
    (let w : Wake := ⟨0, 0, 0, 0, 5⟩
     let s := { parkedAt0 aPark with net := { wakes := [w] } }
     s.net.wakes = [w] ∧ (s.partRec 0).eclipse = none ∧ wakeSlot s w = some .parked ∧
       ofBytes (Mem.read s.mem (poolKey 0 (parkAt (s.core 0).regs.partw w.pslot + 40)) 8) = 0 ∧
       wakeSlot s { w with pslot := 1 } = none) ∧
    (let s := parkedAt0 { aPark with st := .cancelSent }
     s.fencedHome (.pool 1) = false ∧ aPark.cond ≠ 0 ∧ (s.core 1).wakeTable = [(0, ⟨1, 0, 0, 0, 0, 8⟩)]) := by decide +kernel

/-- WLIMIT 1 and more than 256 clocks since the wait began. -/
theorem witness_WaitingSteps_limit :
    let s : State := { parkedAt0 aPark with clk := 257, mem := [(poolKey 0 (parkAt 0x80440 0) + 64, 1)] }
    aPark.st = .parked ∧ overLimit s 0 0 = true := by decide +kernel

def aRecord : DequeRec :=
  { entry := 0x8000000000040000, arg0 := 1, arg1 := 2, join := 3, gtid := 9, domain := 4, stamp := 0, launch := 0 }

def aLaunch : Launch :=
  { queue := 0, part := 0, cls := 0, tag := 0, entry := 0x8000000000040000, arg := 0, n := 1, fmode := 0, stealdom := 4,
    wspin := 0, wlimit := 0, tvec := 0, tsb := 0 }

def aPacked : Packed :=
  { cont := 0x8000000000040000, regs := {}, task := { gtid := 9 }, sl := 0, src := 1, srcCtx := 15, srcGen := 0 }

/-- A partition of one cluster and these cores. -/
def coresOf (l : List (Nat × Core)) : State := onePart { State.reset with cores := l, launches := [(0, aLaunch)] }

/-- A record of the own deque; a woken task; an arrival; a victim with a record and one without; a round over; a root. -/
theorem witness_TasksStartAndMove :
    (let s := coresOf [(0, { deque := [aRecord] })]
     s.takesWork 0 = true ∧ s.firstFree 0 0 = true ∧ s.reservedFor 0 0 = none ∧ (s.core 0).requeue = [] ∧
       (s.core 0).arrivals = [] ∧ s.rootClass aRecord = none ∧ s.launch? aRecord.launch = some aLaunch) ∧
    (let s := coresOf [(0, { requeue := [.woken 0 5], pslots := [(0, aPark)] })]
     s.firstFree 0 0 = true ∧ ((s.core 0).pslots.find? fun x => x.1 == 0) = some (0, aPark) ∧ aPark.on = .form) ∧
    (let s := coresOf [(0, { arrivals := [aPacked] })]
     s.takesWork 0 = true ∧ s.firstFree 0 0 = true ∧ (s.core 0).arrivals = [aPacked]) ∧
    (let s := coresOf [(1, { deque := [{ aRecord with domain := 0 }, aRecord] })]
     s.maySteal 0 0 = true ∧ nextVictim 8 (s.logical 0) 0 = 1 ∧ s.phys (s.partOf 0) 1 = some 1 ∧
       inDomain aRecord.domain 1 (s.logical 0) = true ∧ inDomain 0 1 (s.logical 0) = false) ∧
    (withCtx { steal := { notBefore := 1 } } { State.reset with clk := 1 }).curCtx.steal.notBefore = 1 ∧
    (let s := coresOf []
     s.launch? 0 = some aLaunch ∧ s.part? 0 = some { map := [0] } ∧ physIn { map := [0] } 0 = some 0 ∧
       s.fencedHome (.pool 0) = false ∧ (s.core 0).deque.length < 64) := by decide +kernel

/-- An arrival with 7 and with 8 tasks in the queue; a task turned away, and its next attempt. -/
theorem witness_TasksStartAndMove_migration :
    (∀ n ∈ [7, 8], let s := { coresOf [(0, { arrivals := List.replicate n aPacked })] with net := { migs := [(0, aPacked)] } }
     (s.partRec 0).eclipse = none ∧ (s.ctx 1 15).gen = aPacked.srcGen ∧ s.fencedHome (.pool 0) = false ∧
       (s.core 0).arrivals.length = n ∧ (s.partRec 0).preempt = none ∧ Mem.wf s.mem = true) ∧
    (withCtx { phase := .migWait 0 1 }).curCtx.phase = .migWait 0 1 ∧
    (withCtx { status := .active, phase := .migRetry 0 1 0 }).curCtx.phase = .migRetry 0 1 0 := by decide +kernel

/-- A request of context 0 of a core. -/
def reqOf (core : Nat) (a : Access) : Req := { core := core, ctx := 0, gen := 0, gtid := 0, asid := 0, part := 0, acc := a }

/-- A context with one access at this stage. -/
def sendingOf (a : Access) : State := withCtx { status := .active, phase := .run, accs := [a] }

/-- A strong access of the window, and a relaxed load; an arrival. -/
theorem witness_SendsAndArrivals :
    (let a : Access := { cls := .strong, op := .ldf }
     let c := (sendingOf a).ctx 0 0
     c.sending = true ∧ Dispatches c a ∧ c.nextPlain = some a ∧ c.canSendPlain a = true ∧ c.lost = none) ∧
    (let a : Access := { cls := .relaxed, op := .load }
     let c := (sendingOf a).ctx 0 0
     c.sending = true ∧ Dispatches c a ∧ (c.accs.filter c.canSendRelaxed)[0]? = some a) ∧
    (let r := reqOf 0 {}
     let s : State := { State.reset with net := { channels := [(.ni 0, .pool 1, r)] } }
     s.net.channels = [(.ni 0, .pool 1, r)] ∧ s.fencedHome (.pool 1) = false) :=
  ⟨⟨by decide, trivial, by decide, by decide, by decide⟩, ⟨by decide, by unfold Dispatches; decide, by decide⟩, rfl, by decide⟩

/-- A request of core 4607 to the last word of its pool, with the word's state. -/
def homeOf (a : Access) (sync : BitVec 2) (v : Byte) : State :=
  let key := poolKey 4607 0x3BFFF8
  { withCtx {} with
    ctxs := [(4607 * 16, { status := .active, phase := .run })]
    sync := if sync = 0 then [] else [(key / 8, sync)]
    mem := if v = 0 then [] else [(key, v)]
    net := { homes := [(.pool 4607, reqOf 4607 { a with addr := key, home := .pool 4607 })] } }

/-- FULL and EMPTY, with value 0 and 7. -/
theorem witness_PoolOperations : ∀ sync ∈ [(0 : BitVec 2), 1], ∀ v ∈ [(0 : Byte), 7],
    let s := homeOf { op := .ldf } sync v
    OwnWord s 4607 0x3BFFF8 (reqOf 4607 { op := .ldf, addr := poolKey 4607 0x3BFFF8, home := .pool 4607 }) [] ∧
    (s.syncOf (poolKey 4607 0x3BFFF8 / 8)).getLsbD 0 = decide (sync = 1) ∧
    Mem.read64 s.mem (poolKey 4607 0x3BFFF8) = v.setWidth 64 := by
  intro sync h1 v h2
  simp only [List.mem_cons, List.not_mem_nil, or_false] at h1 h2
  rcases h1 with rfl | rfl <;> rcases h2 with rfl | rfl <;> refine ⟨?_, by decide +kernel, by decide +kernel⟩ <;>
    constructor <;> first | rfl | decide +kernel

/-- A committed store at the end of a pool; a far load and a far store; a relaxed store to a filling page; a replay. -/
theorem witness_LoadsAndStores :
    (let a : Access := { op := .store [some 5, none], rank := 3, size := 2 }
     let s := homeOf a 0 0
     (s.ctx 4607 0).gen = 0 ∧ s.portBusy (.pool 4607) = false ∧ (s.ctx 4607 0).phase = .run ∧ s.sync = [] ∧ (s.core 4607).regs.wpctl.getLsbD 5 = false ∧
       Mem.wf s.mem = true ∧ 0x3BFFF8 + 2 ≤ poolSize) ∧
    (let f : FarRef := { va := 0, asid := 0, s1root := 0, part := 0, st := 2, ia := 0, big := false }
     let r := reqOf 0 { home := .far 3, far := some f, addr := farKey 64 }
     let st : Req := { r with acc := { r.acc with op := .store [some 5], rank := 3 } }
     (∀ x, r.acc.far = some x → x.st = 2) ∧ r.acc.op = .load ∧ st.acc.op = .store [some 5] ∧
       (let q : Req := { st with acc := { st.acc with cls := .relaxed, far := some { f with st := 1 } } }
        let s : State := { State.reset with net := { homes := [(.far 3, q)] } }
        q.acc.isStore = true ∧ q.acc.cls = .relaxed ∧ ({ f with st := 1 } : FarRef).st ≠ 2 ∧
          (s.cluster (q.core / 8)).replay.length < 16) ∧
       (let s : State := { State.reset with clusters := [(0, { replay := [st] })] }
        (s.cluster 0).replay = [st] ∧ st.acc.home = .far 3)) := by
  refine ⟨by decide, fun x h => by cases h; rfl, rfl, rfl, by decide, by decide⟩

/-- A reply of a load to the form that waits for it, and its acknowledgement. -/
def replied (w : Code) (a : Access) : State :=
  withCtx { status := .active, phase := .run, accs := [a], win := { insts := [{ word := w }] } }

/-- The answers of LDF and LDB; an unmet condition; another generation; a PAUSE; a scrub. -/
theorem witness_RepliesArrive :
    (let a : Access := { op := .ldf }
     let w : Code := 0x21000180_40000000_00000000
     let c := (replied w a).ctx 0 0
     (∀ x ∈ c.accs, x.key = a.key → x = a) ∧ a.dead = false ∧ a.park = none ∧ a.rank = 0 ∧ a.op ≠ .hwait ∧
       a.isStore = false ∧ c.win.insts[0]? = some { word := w } ∧
       decode w = some (.ldf { lsid := 1, t := { t0 := some (.slot .a 4) } }) ∧
       (Instr.ldf { lsid := 1, t := { t0 := some (.slot .a 4) } }).info.isSome = true ∧ c.wait = none) ∧
    (let a : Access := { op := .load, size := 1 }
     let w : Code := 0x200000C0_30000000_00FFFFFF
     let c := (replied w a).ctx 0 0
     a ∈ c.accs ∧ a.fwd = [] ∧ (∀ x ∈ c.accs, x.blk = a.blk → x.idx = a.idx → x.key = a.key) ∧
       decode w = some (.ldb { t := { t0 := some (.greg 3) }, z := 0xFFFFFF })) ∧
    ((replied 0 {}).ctx 0 0).gen ≠ 1 ∧
    (let s := withCtx { status := .active, win := { insts := [{ word := 0x08303F00_00000000_00000100 }], pauses := [(0, 0)] } }
     (s.ctx 0 0).win.pauses = [(0, 0)] ∧ decode 0x08303F00_00000000_00000100#96 = some (.pause { z := 256 }) ∧
       (Instr.pause { z := 256 }).info.isSome = true) ∧
    ((4607 : Nat) < 4608 ∧ 0x77FFF < poolSize / 8) ∧ ({ op := .store [] } : Access).isStore = true := by decide +kernel

/-- The supervisor partition of cluster 0 with its pager area at 0x10000 of core 0's pool, and tables in the walk cache:
VA 0 is the 64 KiB page at IA and PA 0x2000000, present; VA 0x10000 the next, absent. -/
def paged : State :=
  let e := fun (s2 : Bool) (level idx : Nat) (v : Word) =>
    ({ stage2 := s2, asid := 0, part := 0, level := level, idx := idx, value := v, ia := 0 } : WalkEntry)
  { State.reset with
    parts := [(0, { map := [0], sup := true })]
    cores := [(0, { regs := { asid := 0x4000 } })]
    clusters := [(0, {
      regs := { pagerq := 0x1000000000010000 }
      walk := [e false 0 0 0x5001, e false 1 0 0x6001, e false 2 0 0x7001, e false 3 0 0x8001, e false 4 0 0x1C00000002000002,
        e false 4 1 0x1C00000002010002, e true 1 0 0x2001, e true 2 0 0x3001, e true 3 1 0x9001,
        e true 4 0x200 0x4C00000002000002, e true 4 0x201 0x0C00000002010002] })] }

def aPend : PendRec := { q := recWord 0 false 0 1 0, w0 := 1, w1 := 2, w2 := 3 }

/-- A record that waits while slot h is free; a context whose record found a busy slot; a relaxed PFILL of an absent page. -/
theorem witness_FaultRecords :
    let free : List (Nat × BitVec 2) := [(poolKey 0 (0x10200 + 24) / 8, 1)]
    (let s : State := { paged with sync := free, clusters := [(0, { regs := { pagerq := 0x1000000000010000 }, pend := [aPend] })] }
     (s.cluster 0).pend = [aPend] ∧ s.pager 0 = some (0, 0x10000) ∧ aPend.job = none ∧ Mem.wf s.mem = true ∧ s.errs.double = [] ∧ s.portBusy (.pool 0) = false ∧
       (s.syncOf (poolKey 0 0x10000 / 8)).getLsbD 0 = false ∧ (s.syncOf (poolKey 0 (0x10200 + 24) / 8)).getLsbD 0 = true) ∧
    (let c := (withCtx { status := .active, phase := .after (.postRetry 0x8000000000040000 0) }).ctx 0 0
     c.phase = .after (.postRetry 0x8000000000040000 0) ∧ c.status = .active ∧ c.loadsOut = false) ∧
    (let s : State := { paged with sync := free, ctxs := [(0, { pfills := [⟨0x8000000000010000, 0x4000, 0, 0⟩] })] }
     classify 0x8000000000010000 1 = .far 0x10000 ∧ (s.cluster 0).hints = [] ∧ (s.cluster 0).pend = [] ∧
       s.pager 0 = some (0, 0x10000) ∧ s.errs.double = []) ∧
    (∀ w, (sget 0 w free).getLsbD 1 = false) := by
  refine ⟨by decide, by decide, by decide, fun w => ?_⟩
  simp only [sget]; split <;> rfl

theorem witness_FaultRecords_walk :
    (match ((walk 0 0 0 (s1Of 0x4000) 0x10000).run { s := { paged with ctxs := [(0, {})] } }).1 with
      | .ok e => some e.st
      | _ => none) = some 0 := by decide +kernel

/-- A request in the ring for the page at VA 0, in directory slot 0. -/
def asking (op : Byte) (page : List Host.Cell) : State :=
  { paged with
    sync := [(poolKey 0 0x10A00 / 8, 1)]
    mem := [(poolKey 0 0x10A00, op), (poolKey 0 0x10A0F, 0x80)] ++ page }

/-- A page of zeros has no block and is accepted. -/
theorem scan_of_zeros {m : List Host.Cell} {key : Nat} (h : ∀ a, key ≤ a → Mem.get m a = 0) : scanPage m key = (0, 0, []) := by
  have hr : ∀ k n, key ≤ k → Mem.read m k n = List.replicate n 0 := fun k n hk => by
    apply List.ext_getElem <;> simp [Mem.read]
    intro i _; exact h _ (by omega)
  have hz : ∀ lo n, (Mem.read m (key + lo) n).all (· == 0) = true := fun lo n => by simp [hr _ _ (Nat.le_add_right key lo)]
  have hc : codeAt m (key + 0) = 0 := by simp only [codeAt, hr _ _ (Nat.le_add_right key 0)]; decide
  have hf : (List.range ((65536 - 0 + 11) / 12)).find?
      (fun i => !(Mem.read m (key + (0 + 12 * i)) (min 12 (65536 - 0 - 12 * i))).all (· == 0)) = none := by
    rw [List.find?_eq_none]; intro i _; rw [hz]; decide
  rw [scanPage, scanFrom]
  simp only [hc, hf]
  rfl

/-- Mapping a page of zeros and one that begins with another word; withdrawing it. -/
theorem witness_ExecutablePages :
    (∀ op ∈ [(1 : Byte), 2], let s := asking op []
      ringAt s 0 = some (0, 0x10A00) ∧ ringOp s 0 = some op.toNat ∧ ringWord s 0 1 = 0x8000000000000000 ∧
        Mem.wf s.mem = true ∧ s.ctxs = [] ∧ (s.cluster 0).mapping = none ∧ s.errs.single = [] ∧ s.errs.double = []) ∧
    ((askPage 0 0 0 0x8000000000000000).run { s := asking 1 [] }).1 =
      .leaf 0x9000 0x4C00000002000002 0x2000000 0x2000000 ∧
    (scanPage (asking 1 []).mem (farKey 0x2000000)).1 = 0 ∧
    (scanPage (asking 1 [(farKey 0x2000000, 5)]).mem (farKey 0x2000000)).1 ≠ 0 ∧
    ((asking 1 []).ctxsOf 0 = []) ∧ (0x10A00 + 32 ≤ poolSize) ∧ (∀ w, ((asking 1 []).syncOf w).getLsbD 1 = false) := by
  refine ⟨by decide +kernel, by decide +kernel, ?_, by decide +kernel, rfl, by decide, fun w => ?_⟩
  · rw [scan_of_zeros fun a ha => ?_]
    have h1 : poolKey 0 0x10A00 < farKey 0x2000000 := by decide
    have h2 : poolKey 0 0x10A0F < farKey 0x2000000 := by decide
    simp only [asking, List.append_nil, Mem.get, beq_iff_eq]
    rw [if_neg (by omega), if_neg (by omega)]; rfl
  · simp only [asking, State.syncOf, sget]; split <;> rfl

/-- A page whose invalidation waits for an access that a context still owes, and for one that it has forgotten. -/
theorem witness_ExecutablePages_waits :
    let x : AccRef := { core := 0, ctx := 0, gen := 0, key := ({} : Access).key }
    let s := fun (accs : List Access) => { asking 1 [] with
      ctxs := [(0, { accs := accs })], clusters := (asking 1 []).clusters.map fun c => (c.1, { c.2 with mapping := some ([x], 0) }) }
    ((s []).cluster 0).mapping = some ([x], 0) ∧ ringAt (s []) 0 = some (0, 0x10A00) ∧ ringOp (s []) 0 = some 0x01 ∧
      (s []).owed x = false ∧ (s [{}]).owed x = true := by decide +kernel

/-- R46, Table 10: a block of BRA alone; the same with GM 11 (its p slot has no producer, which is the header's, and the lower
address), with a NEXIT of 1, and with a sum of 1; a MOVI whose target lies past the block. -/
theorem test_scanner_block :
    let h : Code := 0xB7000000_00000000_00000000
    let bra : Code := 0x07000000_00000000_00000000
    blockVerdict h [bra] = (0, 0) ∧ bra.isHeader = false ∧ blockVerdict h [bra ||| 3#96 <<< 82] = (8, 0) ∧
      blockVerdict (h ||| 1#96 <<< 20) [bra] = (0x0C, 0) ∧ blockVerdict (h ||| 1) [bra] = (0x0D, 0) ∧
      blockVerdict (h ||| 1#96 <<< 82) [0x05100090_3000FFFF_FFFFFFFF, bra] = (5, 1) := by decide +kernel

/-! The engines. -/

/-- A job of context 0 of core 0 in slot 0 of cluster 0, the only one, with its completion word at 0x200. -/
def aJob (engine sub : Nat) (desc : List Byte) : Job :=
  { engine := engine, desc := desc, gtid := 9, core := 0, ctx := 0, asid := 0, part := 0,
    form := (if engine = 0 then 0x31 else if engine = 1 then 0x32 else 0x30, sub), w := (0, 0x200) }

def engineAt (j : Job) (mem : List Host.Cell) (tlb : List TlbEntry) : State :=
  { State.reset with
    parts := [(0, { map := [0] })]
    cores := [(0, { regs := { lprot := Vector.replicate 8 openLpu } })]
    clusters := [(0, { slots := [(0, { gen := 1, job := some j })], order := [0], tlb := tlb })]
    mem := mem }

/-- A CPY of 4,096 bytes from offset 0x1000 to 0x2000. -/
def copyJob : Job :=
  aJob 2 3 (bytesOf 8 0x200 ++ bytesOf 8 0x1000 ++ bytesOf 8 0x2000 ++ bytesOf 8 4096 ++ List.replicate 32 0)

theorem witness_EngineSteps_copy :
    let s := engineAt copyJob [(poolKey 0 0x1FFF, 7)] []
    Mem.wf s.mem = true ∧ pickJob s 0 2 = some (0, copyJob) ∧ copyJob.done = 0 ∧ copyJob.saved = [] ∧ copyBad copyJob = none ∧
    field copyJob.desc 24 4 = 4096 ∧ classify copyJob.src 4096 = .loc 0x1000 ∧ classify copyJob.dst 4096 = .loc 0x2000 ∧
    lpuOk (s.core 0).regs.lprot 0 0x1000 4096 { r := true } = true ∧
    lpuOk (s.core 0).regs.lprot 0 0x2000 4096 { w := true } = true ∧ s.errs = {} ∧
    poolKey 0 0x200 + 8 ≤ poolKey 0 0x2000 := by decide +kernel

theorem no_watch (k : Nat) (j : Job) : ((engineAt j [] []).core k).regs.wpctl.getLsbD 5 = false := by
  simp only [engineAt, State.core, sget]; split <;> rfl

/-- A CPYX of a widening image whose chunk 0 is 2,048 zeros. -/
def expandJob (chunks : List (Nat × Nat)) : Job :=
  { aJob 2 4 (bytesOf 8 0x200 ++ bytesOf 8 0x8000000000040000 ++ bytesOf 8 0x8000000000050000 ++ bytesOf 8 0x1000 ++
      List.replicate 32 0) with first := true, chunks := chunks, st := .running }

def imagePages : List TlbEntry := [{ execPage with x := false }, { execPage with vpage := 5, pa := 0x30000, w := true, x := false }]

def image : List Host.Cell :=
  [(0x20000, 0x40), (0x20040, 0x01), (0x20042, 0x4C), (0x20043, 0x5A), (0x20044, 0x10), (0x20048, 0x9E), (0x20049, 0xBA),
    (0x2004A, 0xE8), (0x2004B, 0xF1)].map (fun x => (farKey x.1, x.2)) ++
  (List.range 16).map fun k => (farKey (0x2004C + k), 0x7F)

/-- The words of the image that chunk 0 is expanded from, as its reads answered them. -/
def imageRead : Job :=
  { expandJob [] with temp := (0x20000 :: (List.range 4).map fun i => 0x20040 + 8 * i).map fun a =>
      (farKey a / 8, (Mem.read64 image (farKey a)).toNat) }

def expanding (j : Job) : State :=
  let s := engineAt j image imagePages
  { s with clusters := s.clusters.map fun x => (x.1, { x.2 with current := #v[none, none, some 0] }) }

set_option maxRecDepth 1000000 in
/-- Before its reads the chunk sends them; with its words it expands, and its place is the page at 0x30000. -/
theorem witness_EngineSteps_chunk :
    let run := fun (j : Job) => (do startJob 0 0 2; expandChunk 0 0 0 j).run { s := expanding j }
    (run (expandJob [])).1 = .stopped ∧
    pickJob (expanding imageRead) 0 2 = some (0, imageRead) ∧ imageRead.chunk = 0 ∧
    (run imageRead).1 = .ok (List.replicate 4096 0) ∧
    (let m := (reach { copyVia 0 imageRead true with asid := imageRead.dstAsid } (imageRead.dst + BitVec.ofNat 64 (4096 * 0)) 4096).run
      (run imageRead).2
     (match m.1 with
      | .ok (.far pa _) => some pa
      | _ => none) = some 0x30000 ∧ (m.2.s.jobOf 0 0).map (·.first) = some true) := by
  refine ⟨by decide +kernel, by decide +kernel, by decide +kernel, by decide +kernel, by decide +kernel⟩

/-- TFREE of the null reference; DNOT of the node 1 and DVAR 0 in a space of three nodes. -/
def freeJob : Job := aJob 0 5 (bytesOf 8 0x200 ++ bytesOf 8 0x400 ++ bytesOf 8 0 ++ bytesOf 8 0xFFFFFFFF)

def diagramJob (sub : Nat) : Job :=
  { aJob 1 sub (bytesOf 8 0x200 ++ bytesOf 8 0x1000 ++ bytesOf 8 0x2000 ++ bytesOf 8 1 ++ List.replicate 16 0) with
    args := [if sub = 0 then 0 else 1, 0, 0] }

def space : List Host.Cell :=
  [(0x1001, 0x30), (0x1008, 3), (0x100C, 2), (0x1011, 0x40), (0x1021, 0x50), (0x102A, 1), (0x1031, 0x60)].map fun x =>
    (poolKey 0 x.1, x.2)

/-- A diagram job on a node that has read its space: TOP 3, the node 2 of variable 0 with COUNT 5, an entry of the op cache, and the descriptor. -/
def diagramRead (sub : Nat) (node : Word) : Job :=
  let w := fun a => poolKey 0 a / 8
  { diagramJob sub with
    args := [node, 0, 0]
    kept := [(w 0x1008, 3 + 3 * 2 ^ 32), (w 0x3020, 5 * 2 ^ 32), (w 0x3028, 2 ^ 32), (w 0x5000, 0), (w 0x5008, 0)] ++
      (List.range 14).map fun i => (w (0x1000 + 8 * i), (Mem.read64 space (poolKey 0 (0x1000 + 8 * i))).toNat) }

/-- One run of a job's program, as a step of its engine makes it. -/
def stepOf (j : Job) : (Except Stop (Nat × Nat × Nat) × Job) × Run :=
  let start : M Unit := do
    if j.engine = 1 then countCluster 0 0x43
    startJob 0 0 j.engine
  (runJob (if j.engine = 0 then treeProg j.form.2 else diagProg j.form.2) 0 0 { j with st := .running }).run
    (start.run { s := engineAt j space [] }).2

/-- TFREE of the null reference ends, and DNOT of a terminal; DNOT of a node comes to the end of a step. -/
theorem witness_EngineSteps_programs :
    (∀ j ∈ [freeJob, diagramRead 2 1, diagramRead 2 2], pickJob (engineAt j space []) 0 j.engine = some (0, j) ∧
      j.halting = none ∧ j.ending = none ∧ j.cancel = false ∧ ((stepOf j).2.s.jobOf 0 0).isSome = true) ∧
    ((stepOf freeJob).1.1.toOption.isSome = true ∧ (stepOf (diagramRead 2 1)).1.1.toOption.map (·.2.2) = some 0) ∧
    (match (stepOf (diagramRead 2 2)).1.1 with
      | .error .step => true
      | _ => false) = true := by decide +kernel

/-- Every chunk a success, and chunk 3 failed with reason 2. -/
theorem witness_EngineSteps_finish :
    let all : List (Nat × Nat) := (List.range 16).map fun k => (k, 0)
    (∀ c ∈ [all, all.set 3 (3, 2)], let s := engineAt { expandJob c with st := .queued } [] []
      Mem.wf s.mem = true ∧ pickJob s 0 2 = some (0, { expandJob c with st := .queued }) ∧ 16 ≤ c.length ∧ s.ctxs = [] ∧ s.ctxsOf 0 = []) ∧
    (∀ x ∈ all, x.2 = 0) ∧ (all.set 3 (3, 2)).find? (fun x => x.2 != 0) = some (3, 2) := by decide +kernel

/-- A reservation of 65,536 clocks, with and without a waiter; a resolved record. -/
theorem witness_EngineSteps_queue :
    let w : QWaiter := { core := 7, ctx := 15, gen := 0, pslot := 0, gtid := 3 }
    (∀ l ∈ [[], [w]], let s : State := { State.reset with
        clk := 65536, clusters := [(0, { slots := [(63, { res := some (9, 0) })], waiters := l })] }
      (s.slotOf 0 63).job = none ∧ (s.slotOf 0 63).res = some (9, 0) ∧ 0 + 65536 ≤ s.clk.toNat ∧
        nextWaiter (s.cluster 0) = l.head?) ∧
    (let j := { copyJob with st := .waitRecord, record := some (0, 0x10218) }
     let s := { engineAt j [] [] with sync := [(poolKey 0 0x10218 / 8, 1)] }
     s.jobOf 0 0 = some j ∧ jobRuns s j = true ∧ (s.syncOf (poolKey 0 0x10218 / 8)).getLsbD 0 = true ∧
       Mem.read64 s.mem (poolKey 0 0x10218) = 0 ∧ s.errs.double = []) := by decide +kernel

/-- Cluster 0's partition with this eclipse line, pre-emption and raises, and context 0 of core 0. -/
def stopping (p : Partition) (c : Ctx) (clk : Word := 0) : State :=
  { State.reset with parts := [(0, { p with map := [0], savea := 0x40000, saveSize := 0x1000, stopa := 0x50000 })],
                     ctxs := [(0, c)], clk := clk }

/-- A raise; the stop area; the ends of the grace period and of the block boundary period. -/
theorem witness_StopsAndSaves :
    let run : Ctx := { status := .active, phase := .run }
    (let s := stopping { raises := [(.halt, 9)] } run
     (s.part? 0).map (·.raises) = some [(.halt, 9)] ∧ (s.part? 0).map (·.eclipse) = some none ∧
       (s.cluster 0).current = Vector.replicate 3 none ∧ s.ctxsOf 0 = [(0, 0)] ∧ (s.ctx 0 0).win.committed = false ∧
       (s.ctx 0 0).accs = []) ∧
    (let s := stopping { eclipse := some { source := 2, gtid := 9, clk := 5 } } { status := .halted }
     Mem.wf s.mem = true ∧ (s.part? 0).map (·.eclipse) = some (some { source := 2, gtid := 9, clk := 5 }) ∧
       ∀ x ∈ s.ctxsOf 0, (s.ctx x.1 x.2).atRest = true) ∧
    (let s := stopping { preempt := some { stage := .grace, clk := 0 } } run (2 ^ 20)
     (s.preempt? 0).map (·.2) = some { stage := .grace, clk := 0 } ∧ 0 + 2 ^ 20 ≤ s.clk.toNat) ∧
    (let s := stopping { preempt := some { stage := .block, clk := 0 } } run (2 ^ 20 + 4096)
     (s.preempt? 0).map (·.2) = some { stage := .block, clk := 0 } ∧ 0 + 2 ^ 20 + 4096 ≤ s.clk.toNat) := by decide +kernel

/-- A context at a block boundary; a deque record; everything saved. -/
theorem witness_StopsAndSaves_records :
    let p : Partition := { preempt := some { stage := .block, clk := 0, records := 6 } }
    (let s := stopping p { status := .active, phase := .fetch 0x8000000000040000 0 }
     (s.preempt? 0).isSome = true ∧ (s.part? 0).bind (nextSave s) = some (0, .ctx 0) ∧
       (s.ctx 0 0).saveable .block = true ∧ 64 + 576 * (6 + 1) ≤ 0x1000) ∧
    (let s := { stopping p {} with cores := [(1, { deque := [aRecord] })] }
     (s.part? 0).bind (nextSave s) = some (1, .deque aRecord)) ∧
    (let s := stopping p {}
     (s.part? 0).map (allSaved s) = some true ∧ Mem.wf s.mem = true) := by decide +kernel

/-- Die 7's umbra at each stage of its containment. -/
def containing (st : UmbraStage) : State :=
  { State.reset with
    parts := [(0, { map := [575] })]
    mgmt := { State.reset.mgmt with
      umbrae := State.reset.mgmt.umbrae.map fun u => if u.id = 7 then { u with stage := st } else u } }

theorem witness_ContainmentSteps :
    (∀ st ∈ [UmbraStage.consumed, .raised, .fenced, .reset], (containing st).umbra? 7 = some { dieUmbra 7 with stage := st } ∧
      (containing st).net.homes = [] ∧ Mem.wf (containing st).mem = true ∧ ((containing st).parts.map (·.1)).Nodup) ∧
    575 ∈ clustersOf (dieUmbra 7) ∧
    (let s := { withCtx { status := .active, phase := .run } with net := { umbraNacks := [(0, 0, 0)] } }
     (s.ctx 0 0).gen = 0 ∧ (s.ctx 0 0).accs = []) := by decide +kernel

/-- A running module with these queues, and nothing else. -/
def hosted (qs : List (Nat × WorkQueue)) (mem : List Host.Cell := []) : State :=
  { State.reset with
    mgmt := { State.reset.mgmt with
      start := .running, queues := qs, peerIds := [7], flash := { State.reset.mgmt.flash with inUse := { peers := [([7], 0)] } } }
    parts := [(0, { map := [0], sup := true })]
    mem := mem }

/-- A queue of 2 entries, enabled. -/
def aQueue : WorkQueue := { en := true, log2n := 1, ring := 0x1000, cring := 0x2000 }

/-- A doorbell of TAIL 2 and CHEAD 0, one of TAIL 3, and one of link 0; a peer write to a present page. -/
theorem witness_HostSteps_doorbells :
    (let s := hosted [(8191, aQueue)]
     s.mgmt.start = .running ∧ s.queue 8191 = aQueue ∧ ((2 : BitVec 32) - aQueue.head).toNat ≤ 2 ^ aQueue.log2n ∧
       (aQueue.ctail - (0 : BitVec 32)).toNat ≤ 2 ^ aQueue.log2n ∧ 2 ^ aQueue.log2n < ((3 : BitVec 32) - aQueue.head).toNat) ∧
    (let s := hosted [(5, { aQueue with loc := 2 })]
     (linkPart s 0).isSome = true ∧ (s.queue 5).loc = 0 + 2 ∧ linkPart s 0 = some 0) ∧
    (let s := { hosted [] with clusters := paged.clusters }
     (s.part? 0).map (·.map.headD 0) = some 0 ∧
       (((stage2 0 0 0x2000000).run { s := s }).1).map (fun y => (leafSt y.v, y.v.getLsbD 59)) = some (2, true)) := by
  decide +kernel

/-- An entry of N = 0, one admitted, and one deferred while the partition is being pre-empted; a launch with nothing left. -/
theorem witness_HostSteps_entries :
    let e : List Host.Cell := [(busKey 0 0x1010, 1), (busKey 0 0x1012, 0), (busKey 0 0x1014, 3)].filter (·.2 != 0)
    let w := { aQueue with tail := 1 }
    (let s := hosted [(0, w)]
     (s.queue 0).en = true ∧ (s.queue 0).head ≠ (s.queue 0).tail ∧
       ((s.queue 0).ctail + BitVec.ofNat 32 (s.queue 0).taken - (s.queue 0).chead).toNat < 2 ^ (s.queue 0).log2n ∧
       entryBad w (entryBytes s w) = true ∧ Mem.wf s.mem = true) ∧
    (let s := hosted [(0, w)] e
     entryBad w (entryBytes s w) = false ∧ Mem.wf s.mem = true ∧
       entryDeferred s ((s.part? 0).getD {}) 0 (bits (field (entryBytes s w) 16 8) 33 32) (fieldWord (entryBytes s w) 48) = false ∧
       entryDeferred s { (s.part? 0).getD {} with preempt := some { stage := .grace, clk := 0 } } 0
         (bits (field (entryBytes s w) 16 8) 33 32) (fieldWord (entryBytes s w) 48) = true) ∧
    (let s := { hosted [(0, aQueue)] with launches := [(0, { aLaunch with placed := 1 })] }
     s.launch? 0 = some { aLaunch with placed := 1 } ∧ ({ aLaunch with placed := 1 } : Launch).n ≤ 1) ∧
    (vget {} (hosted []).mgmt.ports 1).busy = false := by decide +kernel

/-- A module to be started; a frame with a table written; a clock with a counter of source 0x01; dies 0 and 7; 100 ms. -/
theorem witness_ModuleSteps :
    (State.reset.mgmt.start ≠ .running ∧ Mem.wf State.reset.mem = true) ∧
    (State.reset.clk.toNat % 512 = 0) ∧
    (let s : State := { State.reset with cores := [(0, { regs := { evsel := Vector.replicate 4 1 } })] }
     s.clockDone = true ∧ (s.cores.map (·.1)).Nodup ∧ s.evlog = [] ∧ vget 0 (s.core 0).regs.evsel 3 = 1) ∧
    (7 : Nat) < 8 ∧ (∀ x ∈ State.reset.mgmt.hot105, x.1 ≠ 7) ∧ (State.reset.parts.map (·.1)).Nodup ∧
    (let s : State := { State.reset with
        clk := 225000000, mgmt := { State.reset.mgmt with hot95 := [7], hot105 := [(7, 0)] } }
     (7, 0) ∈ s.mgmt.hot105 ∧ s.mgmt.hot95 ≠ [] ∧ 0 + 225000000 ≤ s.clk.toNat) := by decide +kernel

/-- A request at port 1 of a running module. -/
def asked (op : BitVec 8) (p : List Word) (parts : List (Nat × Partition)) (mem : List Host.Cell := []) : State :=
  { hosted [] mem with
    parts := parts
    mgmt := { (hosted []).mgmt with reqs := [{ path := .mailbox 1, op := op, param := p }] } }

theorem asked_is (op : BitVec 8) (p : List Word) (parts : List (Nat × Partition)) (h : p.length = 8) :
    Asked (asked op p parts) 1 op p := ⟨by decide, rfl, h, rfl, rfl⟩

def word8 (a : Word) (b : Word := 0) : List Word := [a, b, 0, 0, 0, 0, 0, 0]

/-- Creation of partition 63 with cluster 575; destruction of one that has been quiesced; a queue of 2^16 entries. -/
theorem witness_PartitionRequests_create :
    (let p : List Word := [63, 0x80440, 0, 0, 0, 0, 0x100, 1]
     let s := asked 0x10 p [] [(busKey 1 0x100, 0x3F), (busKey 1 0x101, 0x82)]
     Asked s 1 0x10 p ∧
     fieldsOk (p.map (·.toNat)) [mask [(5, 0), (9, 8), (27, 16), (56, 32)], mask [(23, 0)], mask [(47, 0)], mask [(47, 0)],
        mask [(47, 0)], allBits, allBits, mask [(9, 0)]] = true ∧ partwOk (p.getD 1 0) = true ∧
     ((readMap (.mailbox 1) 0x100 1).run { s := s }).1 = some [575] ∧ s.part? (63 % 64) = none ∧ s.owner 575 = none) ∧
    (let x : Partition := { map := [575], preempt := some { stage := .saved, clk := 0 } }
     let s := asked 0x11 (word8 63) [(63, x)]
     Asked s 1 0x11 (word8 63) ∧ s.part? 63 = some x ∧ x.quiesced = true ∧ s.net.homes = [] ∧
       (∀ i, i < 8 → 1 ≤ i → (word8 63).getD i 0 = 0)) ∧
    (let p : List Word := [0x10011FFF, 0x1000, 0x2000, 0, 0, 0, 0, 0]
     Asked (asked 0x12 p []) 1 0x12 p ∧
     fieldsOk (p.map (·.toNat)) [mask [(12, 0), (17, 16), (23, 20), (28, 24), (37, 32), (41, 40)], allBits, allBits] = true ∧
     wbitsOf (p.getD 0 0) 23 20 ≤ 9 ∧ 0 < wbitsOf (p.getD 0 0) 28 24 ∧ wbitsOf (p.getD 0 0) 28 24 ≤ 16) :=
  ⟨⟨⟨by decide, rfl, rfl, rfl, by decide⟩, by decide +kernel, by decide, by decide +kernel, by decide, by decide +kernel⟩,
    ⟨asked_is _ _ _ rfl, rfl, by decide, rfl, by decide⟩, ⟨asked_is _ _ _ rfl, by decide +kernel, by decide, by decide, by decide⟩⟩

/-- Pre-emption and resumption with one saved task; a table; the reset's umbrae; a task found and one that is not. -/
theorem witness_PartitionRequests_others :
    (let s := asked 0x13 (word8 0) [(0, { map := [0] })]
     Asked s 1 0x13 (word8 0) ∧ s.part? 0 = some { map := [0] } ∧ (s.cluster 0).current = Vector.replicate 3 none) ∧
    (let q : Preempt := { stage := .saved, clk := 0, records := 1, tasks := [({}, false)] }
     let x : Partition := { map := [0], preempt := some q }
     let s := asked 0x14 (word8 0) [(0, x)] [(farKey (64 + 96), 2)]
     Asked s 1 0x14 (word8 0) ∧ s.part? 0 = some x ∧ q.stage = .saved ∧ q.records = 1 ∧ recKind (saveRecord s x 0) = 2 ∧
       physIn x (recCore (saveRecord s x 0)) = some 0 ∧ keptTask q (fieldWord (saveRecord s x 0) 8) = some ({}, false)) ∧
    (let s := asked 0x15 (word8 1 0x100) []
     Asked s 1 0x15 (word8 1 0x100) ∧ s.mem = [] ∧ (word8 1 0x100).getD 1 0 = 0x100) ∧
    (let s := { asked 0x17 (word8 9) [] with ctxs := [(ctxKey 0 0, { status := .active, phase := .run, task := { gtid := 9 } })] }
     Asked s 1 0x17 (word8 9) ∧ (s.ctx 0 0).status = .active ∧ (s.ctx 0 0).task.gtid = 9 ∧ (s.ctx 0 0).accs = []) ∧
    ((asked 0x17 (word8 9) []).ctxs = [] ∧ (asked 0x17 (word8 9) []).cores = []) :=
  ⟨⟨asked_is _ _ _ rfl, rfl, rfl⟩,
    ⟨⟨by decide, rfl, rfl, rfl, by decide⟩, rfl, rfl, rfl, by decide +kernel, by decide +kernel, by decide +kernel⟩,
    ⟨asked_is _ _ _ rfl, rfl, rfl⟩, ⟨⟨by decide, rfl, rfl, rfl, by decide⟩, rfl, rfl, rfl⟩, rfl, rfl⟩

/-- The eight dies of reset cover every cluster once; their table at 0x100 of host 1's memory. -/
def umbraTable : List Host.Cell :=
  (List.range 8).flatMap fun k =>
    let u := dieUmbra k
    (bytesOf 8 (u.id + u.x0 * 2 ^ 8 + u.y0 * 2 ^ 16 + u.x1 * 2 ^ 24 + u.y1 * 2 ^ 32)).zipIdx.filterMap fun x =>
      if x.1 = 0 then none else some (busKey 1 0x100 + 8 * k + x.2, x.1)

theorem dies_cover (k : Nat) (hk : k < 576) : ∃ i, i < 8 ∧ ∀ j, j < 8 → (k ∈ clustersOf (dieUmbra j) ↔ j = i) := by
  refine ⟨k % 24 / 12 + 2 * (k / 24 / 6), by omega, fun j hj => ?_⟩
  have h : k ∈ clustersOf (dieUmbra j) ↔ 12 * (j % 2) ≤ k % 24 ∧ k % 24 ≤ 12 * (j % 2) + 11 ∧ 6 * (j / 2) ≤ k / 24 ∧
      k / 24 ≤ 6 * (j / 2) + 5 := by
    simp only [clustersOf, dieUmbra, List.mem_filter, List.mem_range, Bool.and_eq_true, hk, true_and, and_assoc]
    exact ⟨fun ⟨a, b, c, d⟩ => ⟨of_decide_eq_true a, of_decide_eq_true b, of_decide_eq_true c, of_decide_eq_true d⟩,
      fun ⟨a, b, c, d⟩ => ⟨decide_eq_true a, decide_eq_true b, decide_eq_true c, decide_eq_true d⟩⟩
  rw [h]
  omega

theorem umbrae_cover (k : Nat) (hk : k < 576) : ∃ i, i < ((List.range 8).map dieUmbra).length ∧
    ∀ j, j < ((List.range 8).map dieUmbra).length →
      (k ∈ ((((List.range 8).map dieUmbra)[j]?).map clustersOf).getD [] ↔ j = i) := by
  obtain ⟨i, hi, h⟩ := dies_cover k hk
  refine ⟨i, by simpa using hi, fun j hj => ?_⟩
  have hj' : j < 8 := by simpa using hj
  simpa [hj'] using h j hj'

theorem witness_PartitionRequests_umbrae :
    let us := (List.range 8).map dieUmbra
    let s := asked 0x16 (word8 0x100 8) [] umbraTable
    Asked s 1 0x16 (word8 0x100 8) ∧ us.length = 8 ∧ (us.map (·.id)).Nodup ∧
    (∀ u ∈ us, u.id < 64 ∧ u.x0 ≤ u.x1 ∧ u.y0 ≤ u.y1 ∧ u.x1 < 24 ∧ u.y1 < 24 ∧
      u.stage = ((s.umbra? u.id).map (·.stage)).getD .ok) ∧
    (∀ k, k < 576 → ∃ i, i < us.length ∧ ∀ j, j < us.length → (k ∈ (us[j]?.map clustersOf).getD [] ↔ j = i)) ∧
    (∀ i, i < 8 → Mem.read64 s.mem (busKey 1 0x100 + 8 * i) =
      BitVec.ofNat 64 ((dieUmbra i).id + (dieUmbra i).x0 * 2 ^ 8 + (dieUmbra i).y0 * 2 ^ 16 + (dieUmbra i).x1 * 2 ^ 24 +
        (dieUmbra i).y1 * 2 ^ 32)) :=
  ⟨⟨by decide, rfl, rfl, rfl, by decide +kernel⟩, rfl, by decide, by decide, umbrae_cover,
    by decide +kernel⟩

/-- Each request with its buffer at 0x100 of host 1's memory. -/
def buffered (a : Word) (n : Word) : List Word := [a, 0, 0, 0, 0, 0, n, 0x100]

/-- A debugger is attached to a partition of cluster 0; context 15 of its core 7 is halted. -/
def debugged (op : BitVec 8) (p : List Word) : State :=
  { asked op p [(63, { map := [0], attached := true })] with
    ctxs := [(ctxKey 7 15, { status := .halted, haltBy := some .bkpt })]
    clusters := [(0, { trace := [[1, 2, 3, 4, 5, 6]] })] }

theorem debugged_is (op : BitVec 8) (p : List Word) (h : p.length = 8) : Asked (debugged op p) 1 op p :=
  ⟨by decide, rfl, h, rfl, rfl⟩

theorem witness_DebugRequests :
    Asked (asked 0x18 (buffered 0 112) []) 1 0x18 (buffered 0 112) ∧ Asked (asked 0x19 (buffered 5 32) []) 1 0x19 (buffered 5 32) ∧
    (∀ i, i < 6 → 1 ≤ i → (buffered 0 112).getD i 0 = 0) ∧
    (debugged 0x1A (word8 (63 + 256))).part? 63 = some { map := [0], attached := true } ∧
    Asked (debugged 0x1A (word8 (63 + 256))) 1 0x1A (word8 (63 + 256)) ∧ Asked (debugged 0x1A (word8 63)) 1 0x1A (word8 63) ∧
    Asked (debugged 0x1D (word8 (63 + 256))) 1 0x1D (word8 (63 + 256)) ∧ Asked (debugged 0x1B (word8 63)) 1 0x1B (word8 63) ∧
    (let p : List Word := [63 + 256 * 15, 0xC000000000000000, 9, 0x8000000000040000, 0, 0, 0, 0]
     Asked (debugged 0x1C p) 1 0x1C p ∧ (p.getD 1 0).toNat % 2 ^ 62 = 0 ∧ ∀ i, i < 8 → 4 ≤ i → p.getD i 0 = 0) ∧
    (let p := word8 (63 + 7 * 2 ^ 16 + 15 * 2 ^ 32)
     let s := debugged 0x1D p
     Asked s 1 0x1D p ∧ physIn { map := [0], attached := true } 7 = some 7 ∧ (s.ctx 7 15).status = .halted ∧
       (s.ctx 7 15).haltBy = some .bkpt) ∧
    (let p := buffered (7 + 15 * 2 ^ 16) 576
     Asked (debugged 0x1E p) 1 0x1E p ∧ ((debugged 0x1E p).partRec 7).attached = true ∧ (p.getD 6 0).toNat < 2 ^ 32) ∧
    Asked (debugged 0x1F (word8 (7 + 15 * 2 ^ 16) 0x100)) 1 0x1F (word8 (7 + 15 * 2 ^ 16) 0x100) ∧
    (let p := buffered 0 9216
     Asked (debugged 0x20 p) 1 0x20 p ∧ ((debugged 0x20 p).partRec 0).attached = true ∧
       ∀ r ∈ ((debugged 0x20 p).cluster 0).trace, r.length = 6) ∧
    (let p := buffered 575 2048
     Asked (debugged 0x20 p) 1 0x20 p ∧ ((debugged 0x20 p).owner 575).isNone = true) ∧
    Asked (asked 0x21 (word8 0) []) 1 0x21 (word8 0) :=
  ⟨asked_is _ _ _ rfl, asked_is _ _ _ rfl, by decide, rfl, debugged_is _ _ rfl, debugged_is _ _ rfl, debugged_is _ _ rfl,
    debugged_is _ _ rfl, ⟨debugged_is _ _ rfl, by decide, by decide⟩, ⟨debugged_is _ _ rfl, by decide, rfl, rfl⟩,
    ⟨debugged_is _ _ rfl, by decide, by decide⟩, debugged_is _ _ rfl, ⟨debugged_is _ _ rfl, by decide, by decide⟩,
    ⟨debugged_is _ _ rfl, by decide⟩, asked_is _ _ _ rfl⟩

/-! Words, steps and the whole machine. -/

theorem witness_DecodeEncode : encode (.add { t := { t0 := some (.greg 1) } }) = some 0x010000C0_10000000_00000000 ∧
    encode (.rfe { z := 1 }) = some 0x38003F00_00000000_00000001 := by decide

/-- Context 15 of core 4607 with an ADD that is ready, whose slot comes at clock 15. -/
def ready : State :=
  { State.reset with
    ctxs := [(ctxKey 4607 15, { status := .active, phase := .run, win := {
      insts := [{ scal 2 3 with word := 0x010000C0_10000000_00000000 }] } })]
    clk := 15, sched := [.slot 4607 15] }

theorem witness_StepRunsDecoded :
    (let d := (ready.ctx 4607 15).onWin fun w => w.land ready.clk.toNat
     slotOpen (ready.ctx 4607 15) 15 ready.clk.toNat = true ∧ d.status = .active ∧ d.phase = .run ∧ d.busy ≤ ready.clk.toNat ∧
       d.complete = false ∧ d.pointFails = false ∧ d.choose.map (·.1) = some 0 ∧
       decode 0x010000C0_10000000_00000000#96 = some (.add { t := { t0 := some (.greg 1) } })) ∧
    ((Instr.clock).info = none ∧ (Instr.clock).wellFormed = true) ∧
    slotOpen (ready.ctx 4607 15) 15 14 = false := by decide +kernel

theorem witness_StepKeepsCanonical : Canonical { State.reset with mem := [(0, 1), (7, 2)], sync := [(0, 1)], ctxs := [(0, {})] } := by
  constructor <;> first | decide | (simp [keysRise, State.reset])

theorem witness_TokenFormsFrame :
    (∃ f, (Instr.add {}).info = some f ∧ Sys2Proof.Machine.FormInfo.onlyToken f) ∧
    (∃ t, exec (.add {}) (at0 (scal 2 3)) = .next t) :=
  ⟨⟨_, rfl, .inl (by decide)⟩, ⟨_, rfl⟩⟩

/-- A guard on true with 0, with null; a guard on false with 1; a null operand. -/
theorem witness_NullFiring :
    let add := fun (gm : Nat) => (BitVec.ofNat 96 (0x010000C0_10000000_00000000 + gm * 2 ^ 82) : Code)
    let i := fun gm p a => ({ word := add gm, a := some a, b := some (.scalar 3), p := p } : Inst)
    (decode (add 1) = some (.add { gm := .onTrue, t := { t0 := some (.greg 1) } }) ∧ Code.gm (add 1) = .onTrue ∧ Code.gm (add 2) = .onFalse) ∧
    (((i 1 (some (.scalar 0)) (.scalar 2)).tok .p).pred = false ∧ (i 1 (some .null) (.scalar 2)).tok .p = .null ∧
      ((i 2 (some (.scalar 1)) (.scalar 2)).tok .p).pred = true ∧ (i 0 none .null).slot .a = some .null) ∧
    (Instr.add {}).wellFormed = true ∧ ((Instr.add {}).info.map formSlots) = some [.a, .b] := by decide

/-- With and without a write of XSIG; BRA of exit 1, TRAP and HALT. -/
theorem witness_SignatureAtCommit :
    let ok := fun (s : State) =>
      let c := s.ctx 0 0
      c.status = .active ∧ c.complete = true ∧ c.win.commitPoint = none ∧ c.win.sigBad = false ∧ c.lost = none ∧
      stackBelow c.win = none ∧ c.win.exits = [⟨0, 0⟩] ∧ c.win.mtc = none ∧
      ({ c.win with mtc := some (0x0A, 7) } : Window).mtc = (some (7 : Word)).map (fun x => ((0x0A : BitVec 8), x))
    ok (completed 0x07080000_00000000_01000042 0 true 5) ∧
    decode 0x07080000_00000000_01000042#96 = some (.bra { gm := .onFalse, exit := 1, z := 66 }) ∧
    ok (completed 0x07500000_00000000_00000005 0 true 5) ∧
    decode 0x07500000_00000000_00000005#96 = some (.trap { z := 5 }) ∧
    ok (completed 0x38203F00_00000000_00000000 0 true 5) ∧
    decode 0x38203F00_00000000_00000000#96 = some (.halt {}) := by decide

/-! ### Single steps and values -/

/-- Runs a form and gives the token of its delivery. -/
def result (i : Inst) (o : Instr) : Option Token :=
  match exec o (at0 i) with
  | .next t => t.curCtx.win.outs.head?.map (·.tok)
  | _ => none

def toG : Targets := { t0 := some (.greg 1) }

/-- R107 and R108: a sum that wraps at W, the high half of a product, a division by zero and one that overflows. -/
theorem test_integer :
    result (scal 0x7FFFFFFF 1) (.add { wd := .w, t := toG }) = some (.scalar 0xFFFFFFFF80000000) ∧
    result (scal 0x8000000000000000 2) (.mulh { t := toG }) = some (.scalar 0xFFFFFFFFFFFFFFFF) ∧
    result (scal 7 0) (.divu { wd := .b, t := toG }) = some (.scalar 0xFF) ∧
    result (scal 7 0) (.rem { t := toG }) = some (.scalar 7) ∧
    result (scal 0x80 0xFF) (.div { wd := .b, t := toG }) = some (.scalar 0xFFFFFFFFFFFFFF80) := by decide +kernel

/-- R110 and R111: a shift by the width shifts by 0; a field that reaches past the width. -/
theorem test_logic :
    result (scal 5 32) (.shl { wd := .w, t := toG }) = some (.scalar 5) ∧
    result (scal 0xF0 0x0804) (.bfx { wd := .b, t := toG }) = some (.scalar 0xF) ∧
    result (scal 0) (.clz { wd := .h, t := toG }) = some (.scalar 16) := by decide +kernel

/-- R130 to R136: 1 + 2^−24 rounds to even in F32; 1/3; the root of 2; infinity minus itself is a NaN. -/
theorem test_float :
    result (scal 0x3F800000 0x33800000) (.fadd { wd := .w, t := toG, xf := 1 }) = some (.scalar 0x3F800000) ∧
    f32.div .rne false (f32.decode 0x3F800000) (f32.decode 0x40400000) = 0x3EAAAAAB ∧
    f64.sqrt .rne false (f64.decode 0x4000000000000000) = 0x3FF6A09E667F3BCD ∧
    (f32.decode (f32.ofVal .rne false (fvSub .rne 0 (f32.decode 0x7F800000) (f32.decode 0x7F800000)))).isNan = true := by
  decide +kernel

/-- R2 and R35: a word stands with its least significant byte first. -/
theorem test_byte_order : bytesOf 8 0x0102030405060708 = [8, 7, 6, 5, 4, 3, 2, 1] := by decide

/-- R241: the CRC-32 of IEEE 802.3 of the digits 1 to 9. -/
theorem test_crc : crc32 [0x31, 0x32, 0x33, 0x34, 0x35, 0x36, 0x37, 0x38, 0x39] = 0xCBF43926 := by decide +kernel

/-- R64 and R67: one step runs the ADD of `ready`: 5 is delivered to g1 and the slot is used. -/
theorem test_step :
    (match step ready with
      | .next t => ((t.ctx 4607 15).win.outs.map fun o => (o.n, o.tok), (t.ctx 4607 15).lastSlot)
      | _ => ([], none)) = ([(1, .scalar 5)], some 15) := by decide +kernel

/-- R176: LDE of a FULL word empties it and answers with its value. -/
theorem test_lde :
    (match exec (.perform (.pool 4607)) (homeOf { op := .lde } 1 7) with
      | .next t => (t.net.replies.map (·.body), t.sync)
      | _ => ([], [])) = ([.value 7], []) := by decide +kernel

/-! ### Further clauses of the obligations -/

/-- MTC of STEALDOM 5; at supervisor level of a PARTW that is not good, of an ASID outside the partition's range, of an RWTB
that is not aligned and of a PAGERQ that is not aligned. -/
theorem witness_ControlRegisterPrivilege_prot :
    let u := fun v => onePart (at0 (scal v) { trapCtx with task := { sup := true } })
    (∀ v : Word, TrapReady (u v)) ∧ (∀ v : Word, Mem.wf (u v).mem = true ∧ (u v).curCtx.task.sup = true) ∧
    Firing (u 5) .none [.a] (scal 5) ∧ 4 < (5 : Word).toNat ∧ partwOk 0 = false ∧
    ((u 9).partRec 0).abase + ((u 9).partRec 0).acount ≤ (0xFFF : Word).toNat % 4096 ∧ (8 : Word).toNat % 32 ≠ 0 ∧
    poolSize < (0x400000 : Word).toNat + 256 ∧ (8 : Word).toNat % 4096 ≠ 0 :=
  ⟨fun v => ⟨rfl, by change (0x1000 : Word) ≠ 0; decide, by change tsaveOk 0x2000 = true; decide, rfl, rfl⟩,
    fun v => ⟨rfl, rfl⟩, firing_of_fires (by decide), by decide, by decide, by decide, by decide, by decide, by decide⟩

/-- A handle of an open stream, and 3, which is closed. -/
theorem witness_RandomStreams_closed :
    let s := at0 (scal 3) { trapCtx with regs := { trapCtx.regs with streams := #v[{ isOpen := true }, {}, {}, {}] } }
    Firing s .none [.a, .b] (scal 3) ∧ TrapReady s ∧ Mem.wf s.mem = true ∧ s.curCtx.regs.streams[3].isOpen = false ∧
    s.curCtx.regs.streams[0].isOpen = true ∧ s.curCtx.regs.streams[1].isOpen = false ∧ ((scal 3).tok .a).word.toNat < 4 :=
  ⟨firing_of_fires (by decide), ⟨by decide, by decide, by decide, by decide, by decide⟩, by decide, by decide, by decide, by decide, by decide⟩

/-- Tag NONE, two tags, and I16 offsets; FX32 and triad lanes. -/
theorem witness_VectorTags :
    let n := vecs 0 1 2 3
    let d : Inst := { word := 0, a := some (.vector 1 1 0), b := some (.vector 1 2 0), c := some (.vector 1 2 0) }
    (Firing (at0 n trapCtx) .none [.a, .b] n ∧ notNone (n.tok .a) = false ∧ notNone (n.tok .b) = false) ∧
    (Firing (at0 d trapCtx) .none [.a, .b, .c] d ∧ allNull (d.tok .a) = false ∧ allNull (d.tok .b) = false ∧
      (d.tok .a).tag ≠ (d.tok .b).tag ∧ offsetTag (d.tok .b) = false ∧ offsetTag (d.tok .c) = false) ∧
    (∀ t ∈ [(11 : BitVec 4), 12], let v := vecs t 5 6 0
      fires (at0 v) .none [.a, .b] v = true ∧ notNone (v.tok .a) = true ∧ (v.tok .a).tag = (v.tok .b).tag ∧ nullAt (v.tok .a) 0 = false) :=
  ⟨⟨firing_of_fires (by decide), by decide, by decide⟩, ⟨firing_of_fires (by decide), by decide, by decide, by decide, by decide, by decide⟩,
    by decide⟩

/-- A block that has its exit: JMP, RET and MIG with an address of the pool; RFE in a handler; HALT at supervisor level. -/
theorem witness_SecondExit :
    let s := at0 (scal 0x40) { regs := { hf := true, tsave := 0x2000 }, task := { sup := true }
                               win := { exits := [{ idx := 3 }], snap := { regs := { tsave := 0x2000 } } } }
    s.curCtx.win.exits ≠ [] ∧ Ctx.loadsOut { s.curCtx with accs := dropBlock s.curCtx } = false ∧
    Firing s .none [] (scal 0x40) ∧ Firing s .none [.a] (scal 0x40) ∧ ((scal 0x40).tok .a).word.toNat / 2 ^ 60 = 0 ∧
    s.curCtx.regs.hf = true ∧ tsaveOk s.curCtx.win.snap.regs.tsave = true ∧ s.curCtx.task.sup = true :=
  ⟨by decide, by decide, firing_of_fires (by decide), firing_of_fires (by decide), by decide, by decide, by decide, by decide⟩

/-- A gather whose lane 1 is the first with a value and stands in another space than lane 0's; a scatter; a core that the
partition does not have. -/
theorem witness_AccessTraps_elements :
    let v : Inst := { word := 0, a := some (.scalar 0), b := some (.vector ((0x3BFFFC#64 ++ 0x2000000000000000#64 ++ 0#64).setWidth 256) 4 1)
                      c := some (.vector ((0x10#64 ++ 1#64 ++ 0#64).setWidth 256) 4 0) }
    let s := onePart (at0 v trapCtx)
    Firing s .none [.a, .b] v ∧ Firing s .none [.a, .b, .c] v ∧ TrapReady s ∧ Mem.wf s.mem = true ∧
    offsetTag (v.tok .b) = true ∧ nullAt (v.tok .b) 0 = true ∧ nullAt (v.tok .b) 1 = false ∧ offsetTag (v.tok .c) = true ∧
    (0x2000000000000000 : Word).toNat / 2 ^ 60 ≠ 0 ∧ classify 1 8 = .loc 1 ∧ (1 : Word).toNat % 8 ≠ 0 ∧
    Stays s 0x2000000000000000 false ∧
    ∃ id off, classify 0x1000004000000000 8 = .core id off ∧ s.phys (s.partOf s.cur.core) id = none :=
  ⟨firing_of_fires (by decide), firing_of_fires (by decide), ⟨by decide, by decide, by decide, by decide, by decide⟩, by decide,
    by decide, by decide, by decide, by decide, by decide, by decide, by decide, .inl rfl, 8, 0, by decide, by decide⟩

/-- The turn of a command and a clock in which the queue has taken another; a CPYX that names ASID 5; a descriptor or
completion word address in no pool, one not aligned and one that no region admits. -/
theorem witness_CommandsAccepted_turns :
    let w : Code := 0x303001C0_30000000_00000000
    let x : Code := 0x304001C0_30000000_00000000
    let d5 := bytesOf 8 0x200 ++ List.replicate 16 0 ++ bytesOf 8 5 ++ List.replicate 32 0
    (let s := { command w 0 (some descBytes) with clusters := [(0, { accepted := some 0 })] }
     ¬InTurn s s.cur) ∧
    (CommandReady (command x 0 (some d5)) descBytes 0 0x200 ∧ fieldWord d5 0 = fieldWord descBytes 0 ∧
      decode x = some (.cpyx { lsid := 1, t := { t0 := some (.greg 3) } }) ∧ x.op = 0x30 ∧ x.sub = 4 ∧
      cpyxPriv (command x 0).curCtx d5 = true ∧ cpyxPriv (command x 0).curCtx descBytes = false) ∧
    (classify 0x3BFFF0 64 = .bad ∧ classify 0x8000000000000000 64 = .far 0 ∧ classify 0x108 64 = .loc 0x108 ∧
      (0x108 : Word).toNat % 32 ≠ 0 ∧ lpuOk (at0 (scal 0) trapCtx).curCtx.win.snap.core.lprot 0 0x100 64 { r := true } = false) ∧
    (classify 0x3BFFF9 8 = .bad ∧ classify 0x8000000000000000 8 = .far 0 ∧ classify 0x204 8 = .loc 0x204 ∧
      (0x204 : Word).toNat % 8 ≠ 0 ∧ classify 0x200 8 = .loc 0x200 ∧
      lpuOk (at0 (scal 0) trapCtx).curCtx.win.snap.core.lprot 0 0x200 8 { w := true, s := true } = false ∧
      TrapReady (at0 (scal 0) trapCtx)) := by
  refine ⟨by unfold InTurn; decide +kernel, ⟨command_ready _ _ _, by decide, by decide, by decide, by decide, by decide +kernel, by decide +kernel⟩,
    ⟨by decide, by decide, by decide, by decide, by decide⟩, by decide, by decide, by decide, by decide, by decide, by decide,
    by decide, by decide, by decide, by decide, by decide⟩

/-- A queued copy and a queued tree job, neither at its end. -/
theorem witness_CancelResult_out : (∃ j, (command 0 1).jobOf 0 0 = some j ∧ j.out = 0 ∧ j.engine < 3 ∧ j.engine = 2 ∧ j.ending = none) ∧
    (let s := engineAt freeJob [] []
     handleSlot s 0 0 1 = some 0 ∧ s.jobOf 0 0 = some freeJob ∧ freeJob.st = .queued ∧ freeJob.owned = [] ∧ freeJob.raised = [] ∧
       freeJob.out = 0 ∧ freeJob.ending = none) := ⟨⟨_, rfl, rfl, by decide, rfl, rfl⟩, by decide +kernel⟩

theorem witness_TaskStarts : aRecord ∉ ([] : List DequeRec) ∧ aRecord ∉ [{ aRecord with gtid := 8 }] := by decide

/-- A rate set of 2 members of 1 lane at offset 0x100 of core 4607's pool, at N 1, with its records at 0x200. -/
def rateSet (op : RateOp) (cur : Byte := 0) : State :=
  let key := poolKey 4607 0
  { withCtx {} with
    ctxs := [(4607 * 16, { status := .active, phase := .run, win := { snap := { core := { lprot := Vector.replicate 8 openLpu } } } })]
    mem := [(key + 0x101, 2), (key + 0x108, 2), (key + 0x10A, 0x80), (key + 0x10C, 1), (key + 0x118, cur),
            (key + 0x208, 1)].filter (·.2 != 0)
    net := { homes := [(.pool 4607, reqOf 4607 { op := .rate op, size := 64, addr := key + 0x100, home := .pool 4607 })] } }

theorem rateSet_unmarked (op : RateOp) (cur : Byte) (w : Nat) : ((rateSet op cur).syncOf w).getLsbD 1 = false := by
  simp [rateSet, withCtx, State.reset, State.syncOf, sget]

/-- Each form on that set; a set whose sweep has begun: member 0 is claimed, member 1 is not, CURSOR 0, 1 and 2. -/
theorem witness_RateSetsAtHome : ∀ op ∈ [RateOp.stat, .begin, .next, .read 1, .read 2, .put 0 0 0, .put 1 0 0, .init],
    ∀ cur ∈ [(0 : Byte), 1, 2],
    let s := rateSet op cur
    let d := descAt s.mem 4607 0x100
    let r := reqOf 4607 { op := .rate op, size := 64, addr := poolKey 4607 0x100, home := .pool 4607 }
    OwnSet s 4607 0x100 r op d ∧ RecordsInside s r d ∧ d.v = true ∧ d.n = 1 ∧ d.count = 2 ∧ d.cursor = cur.toNat ∧
      wbitsOf (BitVec.ofNat 64 d.w1) 31 24 = 0 ∧ d.mbase % 16 = 0 ∧ d.mbase / 2 ^ 22 = 0 ∧
      (memberAt s.mem 4607 d 0).clm = 1 ∧ (memberAt s.mem 4607 d 0).last = 0 ∧ (memberAt s.mem 4607 d 1).clm = 0 ∧
      (memberAt s.mem 4607 d 0).kEff 1 ≤ ctz32 1 := by
  intro op hop cur hc
  simp only [List.mem_cons, List.not_mem_nil, or_false] at hop hc
  have f : ∀ s : State, s = rateSet op cur → ∀ w, (s.syncOf w).getLsbD 1 = false := fun s h w => h ▸ rateSet_unmarked op cur w
  rcases hop with rfl | rfl | rfl | rfl | rfl | rfl | rfl | rfl <;> rcases hc with rfl | rfl | rfl <;>
    refine ⟨?_, ⟨⟨openLpu, by decide +kernel, by decide +kernel, by decide +kernel, by decide +kernel⟩, by decide +kernel, by decide +kernel⟩,
      by decide +kernel⟩ <;>
    constructor <;> first | exact f _ rfl | decide +kernel

/-- A set whose region admits only its descriptor, or that is not valid. -/
theorem witness_RateSetsAtHome_refused :
    let s := rateSet .stat
    let d := descAt s.mem 4607 0x100
    regionAdmits 0 0 0x100 0x140 { r := true } = false ∧ (∀ w ∈ (Vector.replicate 8 (0 : Word)).toList, w = 0) ∧
      (descAt [] 4607 0x100).v = false ∧ (descAt [] 4607 0x100).count = 0 ∧ d.v = true :=
  ⟨by decide, by simp, by decide +kernel, by decide +kernel, by decide +kernel⟩

/-- A strong access to another pool behind four messages that wait in the NI queue; a relaxed one. -/
theorem witness_SendsAndArrivals_far :
    let a : Access := { cls := .strong, op := .ldf, home := .pool 1, core := true }
    let q := (Source.ni 0, Home.pool 1, { reqOf 0 { core := true } with queued := true })
    let s : State := { sendingOf a with net := { channels := [q, q, q, q] } }
    s.niFull 0 0 = true ∧ (s.ctx 0 0).nextPlain = some a ∧ (s.ctx 0 0).canSendPlain a = true ∧ (s.ctx 0 0).lost = none ∧
    (s.ctx 0 0).overtaken a = false ∧ s.fencedHome (.pool 1) = false ∧
    (let b : Access := { cls := .relaxed, op := .load, home := .pool 1, core := true }
     (((sendingOf b).ctx 0 0).accs.filter ((sendingOf b).ctx 0 0).canSendRelaxed)[0]? = some b) := by decide +kernel

/-- The oldest of two requests at a far bank; a far load, a store, and a relaxed store to a page that fills. -/
theorem witness_LoadsAndStores_arrived :
    let f : FarRef := { va := 0, asid := 0, s1root := 0, part := 0, st := 1, ia := 0, big := false }
    let r := reqOf 0 { home := .far 3, addr := farKey 64, op := .store [some 5], rank := 3, cls := .relaxed, far := some f }
    let s : State := { State.reset with net := { homes := [(.far 3, r), (.far 3, { r with at_ := 1 })] } }
    s.arrived (.far 3) = some (.far 3, r) ∧ s.portBusy (.far 3) = false ∧ r.acc.isStore = true ∧ f.st ≠ 2 ∧
    (s.cluster 0).replay.length < 16 ∧ { s with cores := [(5, { portAt := some 0 })] }.portBusy (.pool 5) = true := by decide +kernel

/-- Replies of VLD and VLDG, the second parts of which stand answered; an HWAIT that asks for its trap; an 8-byte load
under a store of its block that gives every byte. -/
theorem witness_RepliesArrive_vectors :
    (let a : Access := { size := 16, got := some (List.replicate 16 7) }
     let b : Access := { part := 1, size := 16 }
     let c := (withCtx { status := .active, phase := .run, accs := [a, b], win := { insts := [{ word := 0x20C000C1_10000000_00600020 }] } }).ctx 0 0
     b ∈ c.accs ∧ a.key ≠ b.key ∧ a.got.isSome = true ∧ c.accs.filter (fun x => x.blk == b.blk && x.idx == b.idx) = [a, b] ∧
       decode 0x20C000C1_10000000_00600020#96 = some (.vld { t := { t0 := some (.vreg 1) }, z := 0x600020 }) ∧
       (∀ x ∈ c.accs, ∀ y ∈ c.accs, x.blk = b.blk → x.idx = b.idx → y.blk = b.blk → y.idx = b.idx → x.part = y.part → x = y) ∧
       (∀ x ∈ c.accs, x.blk = b.blk → x.idx = b.idx → x.key ≠ b.key → x.got.isSome = true)) ∧
    (decode 0x20E000C1_10000000_00600020#96 = some (.vldg { t := { t0 := some (.vreg 1) }, z := 0x600020 })) ∧
    (let w : Code := 0x300000C0_40000000_00100000
     w.z.getLsbD 20 = true ∧ (0x10000000 : Word).toNat / 2 ^ 24 % 256 = 0x10 ∧ hwaitTrap w 0 = none ∧
       TrapReady { withCtx { trapCtx with accs := [{ op := .hwait }], win := { insts := [{ word := w }] } } with cur := ⟨0, 0, 0⟩ }) ∧
    (let ld : Code := 0x203003C0_50000000_00000000
     let st : Code := 0x20B00000_00000000_00000000
     let b : Access := { rank := 3, lsid := 0, idx := 0, op := .store ((List.replicate 8 (7 : Byte)).map some) }
     let a : Access := { rank := 0, lsid := 3, idx := 1 }
     let c := (withCtx { status := .active, phase := .run, accs := [a, b], win := { insts := [{ word := st, resolved := true }, { word := ld }] } }).ctx 0 0
     ∃ f, decode ld = some (.ldd f) ∧ c.sending = true ∧ c.nextPlain = some a ∧ c.canSendPlain a = true ∧ c.overtaken a = false ∧
       c.accs.filter (fun x => x.blk == a.blk && x.idx == a.idx) = [a] ∧ b.idx ∈ c.win.candidates a.lsid ∧
       b.addr = a.addr ∧ a.addr ≠ noKey ∧ (∀ x ∈ c.accs, x.key = a.key → x = a)) := by
  refine ⟨⟨by decide, by decide, by decide, by decide, by decide, fun x hx y hy _ _ _ _ h => ?_, by decide⟩, by decide +kernel,
    ⟨by decide, by decide, by decide, ⟨by decide, by decide, by decide, by decide, by decide⟩⟩,
    { lsid := 3, t := { t0 := some (.greg 5) } }, by decide +kernel⟩
  rcases List.mem_cons.mp hx with rfl | hx <;> rcases List.mem_cons.mp hy with rfl | hy <;>
    first | rfl | (try rcases List.mem_singleton.mp hx with rfl) <;> (try rcases List.mem_singleton.mp hy with rfl) <;> first | rfl | cases h

/-- A word with one error counted at the scrub. -/
theorem witness_RepliesArrive_scrub :
    let s : State := { State.reset with errs := { single := [poolKey 4607 0x3BFFF8] }, cores := [(4607, { scrubNext := 0x77FFF })] }
    0x77FFF = (s.core 4607).scrubNext ∧ 0x77FFF < poolSize / 8 ∧ s.portBusy (.pool 4607) = false ∧ s.net.homes = [] ∧
      s.errs.double = [] ∧ poolKey 4607 (8 * 0x77FFF) ∈ s.errs.single := by decide

/-- The frame of that copy: the ranges lie apart, nothing is on its way, and of its words none has been read, or each has, as
zeros; the frame with every word read and sent. -/
theorem witness_EngineSteps_frame :
    let f := copyJob.frame 0
    let word := fun (j : Job) (i : Nat) => j.word? false (poolKey j.core (0x1000 + i) / 8)
    let read := { copyJob with temp := (List.range 512).map fun w => (poolKey 0 0x1000 / 8 + w, 0) }
    let done := { read with sent := (List.range 512).map fun w => poolKey 0 0x2000 + 8 * w }
    (∀ j ∈ [copyJob, read, done], pickJob (engineAt j [] []) 0 2 = some (0, j) ∧ j.resting = false ∧ j.saved = [] ∧
      copyBad j = none ∧ j.done < j.frameCount ∧ j.out = 0 ∧ j.bad = [] ∧ j.desc = copyJob.desc) ∧
    f.n = 4096 ∧ f.swizzle = 0 ∧ classify f.src f.n = .loc 0x1000 ∧ classify f.dst f.n = .loc 0x2000 ∧
    (∀ i, i < f.n → i ^^^ f.swizzle < f.n ∧ copyJob.inSrc (f.dst.toNat + i) = false) ∧
    (engineAt copyJob [] []).nacks 0 copyJob.core = false ∧ (∀ w, (engineAt copyJob [] []).reading 0 0 w = false) ∧
    word copyJob 0 = none ∧ (∀ w ∈ [0, 255, 511], word read (8 * w) = some 0) ∧
    ∀ w ∈ [0, 255, 511], max (poolKey 0 0x2000) (poolKey 0 (0x2000 + 8 * w) / 8 * 8) ∈ done.sent := by
  have e : copyJob.frame 0 = ⟨0x1000, 0x2000, 4096, 0⟩ := rfl
  refine ⟨by decide +kernel, by decide +kernel, by decide +kernel, by decide +kernel, by decide +kernel,
    fun i hi => ?_, by decide +kernel, fun w => by rfl, by decide +kernel, by decide +kernel, by decide +kernel⟩
  · have hs : copyJob.src = 0x1000 := by decide +kernel
    have hn : field copyJob.desc 24 4 = 4096 := by decide +kernel
    simp only [e] at hi ⊢
    have h1 : (0x1000 : Word).toNat = 4096 := by decide
    have h2 : (0x2000 : Word).toNat = 8192 := by decide
    simp only [Nat.xor_zero, Job.inSrc, hs, hn, h1, h2]
    refine ⟨hi, ?_⟩
    simp only [Bool.and_eq_false_iff, decide_eq_false_iff_not]
    omega

/-- That job alone, which its engine is running. -/
def serving (j : Job) : State :=
  let s := engineAt j [] []
  { s with clusters := s.clusters.map fun x => (x.1, { x.2 with current := vset x.2.current j.engine (some 0) }) }

/-- The job when its frame is done; jobs that are cancelled, or to stop, at a boundary: the copy, a tree job that has a stop
record and owns a node, and one that has and owns none. -/
theorem witness_EngineSteps_done :
    (let j := { copyJob with done := 1 }
     pickJob (engineAt j [] []) 0 2 = some (0, j) ∧ j.resting = false ∧ j.out = 0 ∧ j.done = j.frameCount ∧ copyBad copyJob = none) ∧
    (∀ b ∈ [true, false], let j := { copyJob with st := .running, edge := true, cancel := b, stopping := some 4 }
      pickJob (serving j) 0 2 = some (0, j) ∧ j.resting = true ∧ j.out = 0) ∧
    (∀ b ∈ [true, false], ∀ sr ∈ [none, some (0, 0x400)], ∀ l ∈ [[], [5]],
      let j := { freeJob with st := .running, edge := true, cancel := b, stopping := some 5, sr := sr, owned := l }
      pickJob (serving j) 0 0 = some (0, j) ∧ j.rests = true ∧ j.out = 0 ∧ j.ending = none ∧ j.halting = none ∧
        (stopImage 0 j 5)[0]?.isSome = true) := by decide +kernel

/-- A diagram job that has read its space opens it; its node 2 has COUNT 5. -/
def inSpace (sub : Nat) : Except Stop DSpace × EngRun :=
  let j := diagramRead sub 2
  (ExceptT.run (openSpace sub)).run { run := { s := engineAt j space [] }, cl := 0, slot := 0, left := j.log, job := j.fresh }

theorem witness_EngineJobResults_opened :
    (let o := inSpace 7
     o.1.toOption.isSome = true ∧ o.2.left = [] ∧ o.2.job.out = 0 ∧ o.2.job.mark.nodes = 0 ∧ o.2.job.owned = [] ∧ o.2.job.bad = [] ∧
       o.2.job.args = (diagramRead 7 2).args ∧ o.2.job.engine = 1) ∧
    (let o := inSpace 8
     (match o.1 with
       | .ok sp => decide (sp.d = (0, 0x1000) ∧ sp.n = (0, 0x3000) ∧ (nodeOfWords (5 * 2 ^ 32) (2 ^ 32)).ok sp = true ∧
           o.2.job.word? true (poolKey 0 0x1008 / 8) = some (3 + 3 * 2 ^ 32) ∧
           o.2.job.word? true (poolKey 0 0x3020 / 8) = some (5 * 2 ^ 32) ∧ o.2.job.word? true (poolKey 0 0x3028 / 8) = some (2 ^ 32))
       | .error _ => false) = true ∧
     (nodeOfWords (5 * 2 ^ 32) (2 ^ 32)).count = 5 ∧ (nodeOfWords 0 (2 ^ 32)).count = 0) := by decide +kernel

theorem witness_EngineJobResults_values :
    ((fun b : Nat => b == 1) 0 = false ∧ applyRule 1 0 5 = some 0) ∧
    ((3 : Nat) < 16 ∧ ([1, 2] : List Nat).length = 0x81 - 0x7F) ∧
    ((FVal.fin false 3 0).rat? = some (ratOf false 3 0)) ∧ ((0x7F : Byte).toNat % 128 = 0x7F) ∧
    (classify (fieldWord freeJob.desc 0) 8 = .loc 0x200 ∧ freeJob.log = [] ∧ freeJob.out = 0) := by decide +kernel

/-- A request of job j's at offset 0x200 of core 0's pool, at the head of that pool's queue. -/
def atPool (j : Job) (kind : EngKind) (op : MemOp) : State :=
  { engineAt j [] [] with net := { homes := [(.pool 0, { reqOf 0 { home := .pool 0, addr := poolKey 0 0x200, op := op } with
      eng := some { engine := j.engine, cl := 0, slot := 0, gen := 1, id := 0, kind := kind } })] } }

theorem engine_unmarked (j : Job) (w : Nat) : ((engineAt j [] []).syncOf w).getLsbD 1 = false := by
  simp [engineAt, State.reset, State.syncOf, sget]

theorem at_pool (j : Job) (kind : EngKind) (op : MemOp) :
    ∃ r e, AtPool (atPool j kind op) 0 0x200 r e j ∧ e.kind = kind ∧ r.acc.op = op ∧ e.cl = 0 ∧ e.slot = 0 ∧ e.engine = j.engine := by
  refine ⟨_, _, ⟨rfl, rfl, ⟨rfl, rfl, rfl⟩, ⟨rfl, rfl, rfl, rfl⟩, by decide, fun w => engine_unmarked j w, ⟨rfl, rfl⟩, fun i => no_watch i j, rfl⟩, rfl, rfl, rfl, rfl, rfl⟩

/-- A read that is kept, a write of 2 bytes, a completion word. -/
theorem witness_EngineSteps_home :
    ∀ x ∈ [(EngKind.read true, MemOp.load), (.write, .store [some 5, none, some 6]), (.word 0 true, .sts 9)],
      ∃ s r e, AtPool s 0 0x200 r e copyJob ∧ e.kind = x.1 ∧ r.acc.op = x.2 :=
  fun x _ => let ⟨r, e, h, k, o, _⟩ := at_pool copyJob x.1 x.2; ⟨_, r, e, h, k, o⟩

/-- A TRESUME of a handle whose slot is empty, and of one whose job is suspended with 0x10, both of generation 1. -/
theorem witness_EngineJobResults_resume :
    let i := { freeJob with st := .suspended 0x10, w := (0, 0x300) }
    (∃ s r e, AtPool s 0 0x200 r e freeJob ∧ e.kind = .resume 0x101 [0x10, 0x12] 4 ∧ r.acc.op = .sts 7 ∧
      s.jobOf e.cl (0x101 / 256 % 64) = none) ∧
    (∃ s r e, AtPool s 0 0x200 r e freeJob ∧ e.kind = .resume 0x101 [0x10, 0x12] 4 ∧ r.acc.op = .sts 7 ∧
      s.jobOf e.cl 1 = some i ∧ 1 ≠ e.slot ∧ 0x101 / 2 ^ 14 = e.engine ∧ (s.slotOf e.cl 1).gen.toNat = 0x101 % 256 ∧ i.engine = e.engine ∧ i.part = freeJob.part ∧
      s.nacks e.cl i.w.1 = false ∧ i.w.2 % 8 = 0 ∧ poolKey 0 0x200 + 8 ≤ poolKey i.w.1 i.w.2) := by
  refine ⟨let ⟨r, e, h, k, o, c, _⟩ := at_pool freeJob (.resume 0x101 [0x10, 0x12] 4) (.sts 7); ⟨_, r, e, h, k, o, c ▸ rfl⟩, ?_⟩
  refine ⟨{ atPool freeJob (.resume 0x101 [0x10, 0x12] 4) (.sts 7) with
    clusters := [(0, { slots := [(0, { gen := 1, job := some freeJob }),
      (1, { gen := 1, job := some { freeJob with st := .suspended 0x10, w := (0, 0x300) } })], order := [0, 1] })] }, _, _,
    ⟨rfl, by decide +kernel, ⟨rfl, rfl, rfl⟩, ⟨rfl, rfl, rfl, rfl⟩, by decide, fun w => engine_unmarked freeJob w, ⟨rfl, rfl⟩,
      fun i => no_watch i freeJob,
      rfl⟩, rfl, rfl, rfl, by decide, rfl, rfl,
    rfl, rfl, by decide +kernel, by decide, by decide⟩

/-- A value half way between two of F16; the two largest finite values of a format, and a value above both; infinities. -/
theorem witness_RoundingIsCorrect_ends :
    (let d := f16.decode (f16.round .rdn false false 4097 4096 0)
     let u := f16.decode (f16.round .rup false false 4097 2048 0)
     d.rat? = some 1 ∧ u.rat?.isSome = true) ∧
    (∀ g ∈ [f64, f32, f16, bf16, e4m3, e5m2], (g.decode (g.maxFin - 1)).rat?.isSome = true ∧ (g.decode g.maxFin).rat?.isSome = true) ∧
    ((e4m3.decode e4m3.maxFin).rat? = some 448 ∧ (448 : Rat) < 1000) ∧ decodeTag 6 0x7F800000 = .inf false ∧
    decodeTag 6 0xFF800000 = .inf true := by decide +kernel

/-- An MTC to PAGERQ of a page of core 1's pool, which the supervisor partition holds. -/
theorem witness_ControlRegisterWriteReadsBack_pager :
    let s : State := { at0 (scal 0) with parts := [(0, { map := [0], sup := true })] }
    (0x1000000800011000 : Word).toNat % 4096 = 0 ∧ ∃ id off u k, classify 0x1000000800011000 0x1000 = .core id off ∧
      off + 0x1000 ≤ poolSize ∧ s.supPart = some u ∧ s.phys u id = some k :=
  ⟨by decide, 1, 0x11000, 0, 1, by decide, by decide, rfl, rfl⟩

/-- A block past its commit point at a raise; a stopped partition whose engines have no write out. -/
theorem witness_StopsAndSaves_committed :
    let run : Ctx := { status := .active, phase := .run, win := { committed := true } }
    (stopping { raises := [(.halt, 9)] } run).ctxsOf 0 = [(0, 0)] ∧
    ((stopping { raises := [(.halt, 9)] } run).ctx 0 0).win.committed = true ∧
    ((stopping { eclipse := some { source := 2, gtid := 9, clk := 5 } } { status := .halted }).part? 0).map
      (stopping {} {}).jobsOut = some false := by decide +kernel

/-- A CHEAD past CTAIL; an entry whose queue names partition 1; a busy mailbox. -/
theorem witness_HostSteps_more :
    2 ^ aQueue.log2n < (aQueue.ctail - (1 : BitVec 32)).toNat ∧
    (let e : List Host.Cell := [(busKey 0 0x1010, 1), (busKey 0 0x1014, 3), (busKey 0 0x1015, 1)]
     let w := { aQueue with tail := 1, part := 1 }
     let s := hosted [(0, w)] e
     entryBad w (entryBytes s w) = false ∧ s.part? w.part = none) ∧
    ({ (vget {} (hosted []).mgmt.ports 1) with busy := true } : Port).busy = true := by decide +kernel

/-- A record accepted, one whose version is too low or that lacks a signature, and both so; an image of whose copies one
verifies, or none; an MTC to PAGERQ of two cores; messages in the NI queues of two cores; the power loss. -/
theorem witness_ModuleSteps_records :
    let ok := fun (x : Signed) => x.rsa = true ∧ x.slh = true
    let good := fun (f : Flash) (r : ConfigRecord) => ok r.signed ∧ f.accepted.toNat ≤ r.version.toNat
    let f : Flash := { accepted := 5, record := { version := 5 }, previous := { version := 5 } }
    ((vget {} f.steps 3).outcome ≠ 2 ∧ good f f.record ∧ ok f.copy) ∧
    (let g : Flash := { f with record := { version := 4 }, copy := { rsa := false } }
     ¬good g g.record ∧ good g g.previous ∧ (vget {} g.steps 2).outcome ≠ 2 ∧ ok g.image ∧ ¬ok g.copy) ∧
    (let g : Flash := { f with record := { version := 5, signed := { slh := false } }, previous := { version := 3 } }
     ¬good g g.record ∧ ¬good g g.previous) ∧
    (let g : Flash := { f with image := { rsa := false }, copy := { slh := false } }
     ¬ok g.image ∧ ¬ok g.copy) ∧
    (let v : Vector (BitVec 7) 64 := Vector.replicate 64 3
     let s : State := { State.reset with mgmt := { State.reset.mgmt with nextSlots := [(true, v)] } }
     s.mgmt.nextSlots = [(true, v)] ∧ s.clk.toNat % 512 = 0 ∧ { s with clk := 1 }.clk.toNat % 512 ≠ 0) ∧
    (let s : State := { State.reset with clusters := [(3, { mtcs := [(7, 0x2B, 0x1000), (1, 0x2B, 0x2000)] })] }
     (s.cluster 3).mtcs = [(7, 0x2B, 0x1000), (1, 0x2B, 0x2000)] ∧ s.clockDone = true ∧ (s.clusters.map (·.1)).Nodup) ∧
    (let q := fun (k : Nat) => (Source.ni k, Home.pool 9, { reqOf k { core := true } with queued := true })
     let s : State := { State.reset with net := { channels := [q 0, q 1, q 0] } }
     s.clockDone = true ∧ (s.net.channels.filter fun x => x.2.2.queued && x.2.2.core == 0).length = 2) := by decide +kernel

/-- The task in the last context of the table, after one of another task and a FREE one; in a deque behind another. -/
theorem witness_PartitionRequests_found :
    let other : Ctx := { status := .active, phase := .run, task := { gtid := 8 } }
    let mine : Ctx := { status := .active, phase := .run, task := { gtid := 9 } }
    let s : State := { asked 0x17 (word8 9) [] with
      ctxs := [(ctxKey 0 0, other), (ctxKey 0 1, { task := { gtid := 9 } }), (ctxKey 4607 15, mine)] }
    (s.ctxs = [(ctxKey 0 0, other), (ctxKey 0 1, { task := { gtid := 9 } })] ++ (ctxKey 4607 15, s.ctx 4607 15) :: [] ∧
      (∀ x ∈ [(ctxKey 0 0, other), (ctxKey 0 1, { task := { gtid := 9 } })], ¬(x.2.status ≠ .free ∧ x.2.task.gtid = 9)) ∧
      (s.ctx 4607 15).status ≠ .free ∧ (s.ctx 4607 15).task.gtid = 9 ∧ (s.ctx 4607 15).phase = .run ∧
      (s.ctx 4607 15).accs = []) ∧
    (let t : State := { s with ctxs := [], cores := [(2, {}), (5, { deque := [{ aRecord with gtid := 8 }, { aRecord with gtid := 9 }] })] }
     (t.core 5).deque = [{ aRecord with gtid := 8 }] ++ { aRecord with gtid := 9 } :: [] ∧
       (∀ x ∈ t.cores, x.1 ≠ 5 → ∀ y ∈ x.2.deque, y.gtid ≠ 9) ∧ (t.cores.map (·.1)).Pairwise (· < ·) ∧
       ∀ x ∈ t.cores, ∀ y ∈ x.2.pslots, y.2.st = .reserved ∨ y.2.task.gtid ≠ 9) := by decide +kernel

/-- A termination that waits: the context is FREE, or holds another task. -/
theorem witness_PartitionRequests_target :
    let s : State := { asked 0x17 (word8 9) [] with mgmt := { (hosted []).mgmt with
      reqs := [{ path := .mailbox 1, op := 0x17, param := word8 9, begun := true, target := some (0, 0, 3) }] } }
    Begun 1 0x17 (word8 9) s (some (0, 0, 3)) ∧ (s.ctx 0 0).status = .free ∧ (s.ctx 0 0).gen ≠ 3 := by
  refine ⟨rfl, by decide, by decide⟩

/-- A full NI send queue, and a complete block, in the slot of context 0. -/
theorem witness_StepRunsDecoded_slots :
    let q := (Source.ni 0, Home.pool 1, { reqOf 0 { core := true } with queued := true })
    ready.niFull 4607 15 = false ∧
    (let s := { completed 0x07000000_00000000_0000000F 0 true 5 with sched := [.slot 0 0] }
     let d := (s.ctx 0 0).onWin fun w => w.land s.clk.toNat
     slotOpen (s.ctx 0 0) 0 0 = true ∧ d.status = .active ∧ d.phase = .run ∧ d.busy ≤ 0 ∧ d.complete = true ∧ s.niFull 0 0 = false ∧
       { s with net := { channels := [q, q, q, q] } }.niFull 0 0 = true) := by decide +kernel

/-! ### Clauses on the port, the engines and the checks -/

/-- Offset lanes 1 to 7 of a gather and a scatter of I32, all at 0x124 of the own pool. -/
theorem witness_GatherScatterEnter :
    let v : Inst := { word := 0, a := some (.scalar 0x124), b := some (.vector 4 3 1), c := some (.vector 0 3 0) }
    let s := at0 v openCtx
    PoolPlace s 0x124 4 { r := true } true { home := .pool 0, addr := poolKey 0 0x124 } ∧
    PoolPlace s 0x124 4 { w := true } true { home := .pool 0, addr := poolKey 0 0x124 } ∧ (0x124 : Word).toNat % 4 = 0 ∧
    ((List.range 8).filter fun k => !nullAt (v.tok .b) k).head? = some 1 ∧ Stays s 0x124 false ∧
    (0x124 : Word).toNat / 2 ^ 60 = (0x128 : Word).toNat / 2 ^ 60 :=
  ⟨.inl ⟨0x124, by decide, by decide, rfl⟩, .inl ⟨0x124, by decide, by decide, rfl⟩, by decide, by decide, .inl rfl, by decide⟩

/-- A signalling and a quiet NaN, zeros of unlike sign, infinities; one and zero. -/
theorem witness_NanOperandsGiveNan :
    (f32.decode 0x7F800001).isNan = true ∧ (f32.decode 0xFFC00000).isNan = true ∧ (f32.decode 0x80000000).isZero = true ∧
    f32.decode 0xFF800000 = .inf true ∧ (f32.decode 0).isZero = true ∧ (f32.decode 0x3F800000).isNan = false ∧
    (f32.decode 0x3F800000).isZero = false ∧ fvMul 0 (.inf true) (f32.decode 0x3F800000) = .inf true ∧
    (f32.decode 0).rat? = some 0 ∧ (f32.decode 0x80000000).rat? = some 0 := by decide +kernel

theorem witness_FloatSignCompareResults_order :
    (f32.decode 0x80000000).below (f32.decode 0) ∧ (f32.decode 0xFF800000).below (f32.decode 0) ∧
    (f32.decode 0).below (f32.decode 0x7F800000) ∧ (f32.decode 0xFF800000).below (f32.decode 0x7F800000) ∧
    (f32.decode 0x3F800000).below (f32.decode 0x40000000) :=
  ⟨.inr (by decide +kernel), rfl, rfl, ⟨rfl, rfl⟩, .inl (by decide +kernel)⟩

/-- A port that an action holds: an access of the own core to other bytes, one to the bytes it touches, one of another core. -/
theorem witness_LoadsAndStores_hold :
    let r := fun (o : Nat) => reqOf 4607 { home := .pool 4607, addr := poolKey 4607 o, op := .store [some 5], rank := 3, size := 1 }
    let s := fun (q : Req) => { State.reset with
      cores := [(4607, { hold := { till := 9, touched := [(0x200, 64)] } })], net := { homes := [(.pool 4607, q)] } }
    PortOpen (s (r 0x1FF)) 4607 (r 0x1FF) ∧ 0 < ((s (r 0x1FF)).core 4607).hold.till ∧ (r 0x1FF).own = true ∧ 0x1FF / 64 = (0x1FF + 1 - 1) / 64 ∧
    (s (r 0x23F)).arrived (.pool 4607) = some (.pool 4607, r 0x23F) ∧ 0x200 < 0x23F + 1 ∧ 0x23F < 0x200 + 64 ∧
    ¬PortOpen (s (r 0x23F)) 4607 (r 0x23F) ∧ ({ r 0x1FF with core := 1 }).own = false := by decide +kernel

/-- The paging state sets no watch; the request's page is asked for once its words have been read. -/
theorem witness_ExecutablePages_asked :
    (paged.core 0).regs.wpctl.getLsbD 5 = false ∧
    ((askPage 0 0 0 0x8000000000000000).run ((ringRead 0 0 0x10A00).run { s := asking 1 [] }).2).1 =
      .leaf 0x9000 0x4C00000002000002 0x2000000 0x2000000 ∧
    ((asking 1 []).core 0).regs.wpctl.getLsbD 5 = false ∧ (∀ k, ((withCtx {}).core k).regs.wpctl.getLsbD 5 = false) ∧
    (asked 0x14 (word8 0) [(0, { map := [0] })]).fencedHome (.pool 0) = false :=
  ⟨by decide, by decide +kernel, by decide, fun _ => by simp [withCtx, State.core, State.reset, sget], by decide⟩

/-- An HWAIT that asked for its trap, when its reply is over. -/
theorem witness_RepliesArrive_trap :
    let w : Code := 0x300000C0_40000000_00100000
    let p : Reply := { core := 0, ctx := 0, gen := 0, acc := { op := .hwait }, body := .value 0x10000000 }
    let s := { withCtx { trapCtx with accs := [{ op := .hwait }], win := { insts := [{ word := w }] } } with net := { replies := [p] } }
    TrapReady { s.replied p (fun w => w) with cur := { core := 0, ctx := 0, idx := 0 } } ∧ s.net.replies = [p] ∧ (s.ctx 0 0).gen = 0 := by
  refine ⟨⟨by decide, by decide, by decide, by decide, by decide⟩, rfl, rfl⟩

set_option maxRecDepth 1000000 in
/-- Chunk 0 of the image, the first begun or the second to begin; chunks that all have ended, and the invalidation of a page
that waits for nothing, or for an access. -/
theorem witness_EngineSteps_chunks :
    (∀ j ∈ [{ imageRead with begun := [0] }, { imageRead with chunks := [(1, 0)] }],
      pickJob (expanding j) 0 2 = some (0, j) ∧ j.chunkOpen 0 = true ∧ (j.chunks ≠ [] ∨ j.begun ≠ []) ∧
      (let run := (do startJob 0 0 2; beginChunk 0 0 0; expandChunk 0 0 0 j).run { s := expanding j }
       run.1 = .ok (List.replicate 4096 0) ∧
       (let m := (reach { copyVia 0 j true with asid := j.dstAsid } (j.dst + BitVec.ofNat 64 (4096 * 0)) 4096).run run.2
        (match m.1 with
          | .ok (.far pa _) => some pa
          | _ => none) = some 0x30000 ∧ (m.2.s.jobOf 0 0).map (·.first) = some true))) ∧
    (let c := (List.range 16).map fun k => (k, 0)
     let x : AccRef := { core := 0, ctx := 0, gen := 0, key := ({} : Access).key }
     ∀ inv ∈ [none, some [], some [x]],
       let j := { expandJob (c.set 3 (3, 2)) with st := .queued, inv := inv }
       pickJob (engineAt j [] []) 0 2 = some (0, j) ∧ j.resting = false ∧ j.out = 0 ∧ 16 ≤ j.chunks.length ∧ j.form = (0x30, 4) ∧
         j.chunks.find? (fun x => x.2 != 0) = some (3, 2) ∧ (engineAt j [] []).owed x = false ∧
         { engineAt j [] [] with ctxs := [(0, { accs := [{}] })] }.owed x = true) := by decide +kernel

/-- A read ahead of the copy engine, with and without a write of its job's to that word on its way. -/
theorem witness_EngineSteps_ahead :
    (∃ s r e, AtPool s 0 0x200 r e copyJob ∧ e.kind = .ahead ∧ r.acc.op = .load) ∧
    (let r := { reqOf 0 { home := .pool 0, addr := poolKey 0 0x200, op := .store [some 5] } with
       eng := some { engine := 2, cl := 0, slot := 0, gen := 1, id := 0, kind := .write } }
     let q := fun (n : EngKind) (x : Req) => n == .write && x.acc.addr / 8 == poolKey 0 0x200 / 8
     { engineAt copyJob [] [] with net := { channels := [(.engine 0 2, .pool 0, r)] } }.jobSent 0 0 q = true ∧
       (engineAt copyJob [] []).jobSent 0 0 q = false) :=
  ⟨let ⟨r, e, h, k, o, _⟩ := at_pool copyJob .ahead .load; ⟨_, r, e, h, k, o⟩, by decide +kernel⟩

end Sys2Proof.Tests
end

section
/-! SUPPORT. Programs of changes by rules: `M.Ends p s Q` says that a program run from a state makes primitive changes alone
and that Q holds of its answer and of the state it ends in. One rule for each primitive program; a meaning is followed by
applying them in its own order. -/

namespace Sys2Proof.Machine

/-- Run from `s`, the program makes primitive changes alone, and Q holds of its answer and of the state they make. -/
def M.Ends {α : Type} (p : M α) (s : State) (Q : α → State → Prop) : Prop :=
  ∀ l, ∃ es, (p.run { s := s, log := l }).2 = { s := applyAll es s, log := es.reverse ++ l } ∧
    Q (p.run { s := s, log := l }).1 (applyAll es s)

namespace M

variable {α β : Type} {s : State}

theorem Ends.pure {Q : α → State → Prop} {a : α} (h : Q a s) : Ends (pure a) s Q := fun _ => ⟨[], rfl, h⟩

theorem Ends.eff {Q : Unit → State → Prop} {e : Eff} (h : Q () (e.apply s)) : Ends (eff e) s Q := fun _ => ⟨[e], rfl, h⟩

theorem Ends.getS {Q : State → State → Prop} (h : Q s s) : Ends getS s Q := fun _ => ⟨[], rfl, h⟩

/-- Two programs one after the other: the second goes on in the state in which the first ends. -/
theorem Ends.bind {Q : β → State → Prop} {p : M α} {q : α → M β} (h : Ends p s fun a t => Ends (q a) t Q) :
    Ends (p >>= q) s Q := by
  intro l
  obtain ⟨es, hp, hq⟩ := h l
  obtain ⟨fs, hr, hQ⟩ := hq (es.reverse ++ l)
  have run_bind : (p >>= q).run { s := s, log := l } =
      (q (p.run { s := s, log := l }).1).run { s := applyAll es s, log := es.reverse ++ l } := hp ▸ rfl
  refine ⟨es ++ fs, ?_, ?_⟩
  · rw [run_bind, hr, applyAll_append, List.reverse_append, List.append_assoc]
  · rwa [run_bind, applyAll_append]

/-- A step made by a program reaches the state in which the program ends. -/
theorem Ends.reaches {P : State → Prop} {p : M Unit} (h : Ends p s fun _ t => P t) : Reaches (runM p s) P := by
  obtain ⟨es, hp, hP⟩ := h []
  refine ⟨applyAll es s, ?_, hP⟩
  rw [runM, act, changes, hp, List.append_nil, List.reverse_reverse]

theorem Ends.getCtx {k c : Nat} {Q : Ctx → State → Prop} (h : Q (s.ctx k c) s) : Ends (getCtx k c) s Q :=
  .bind (.getS (.pure h))

theorem Ends.getCore {k : Nat} {Q : Core → State → Prop} (h : Q (s.core k) s) : Ends (getCore k) s Q :=
  .bind (.getS (.pure h))

theorem Ends.getCluster {k : Nat} {Q : Cluster → State → Prop} (h : Q (s.cluster k) s) : Ends (getCluster k) s Q :=
  .bind (.getS (.pure h))

theorem Ends.now {Q : Nat → State → Prop} (h : Q s.clk.toNat s) : Ends now s Q := .bind (.getS (.pure h))

theorem Ends.peek {k n : Nat} {Q : List Byte → State → Prop} (h : Q (Mem.read s.mem k n) s) : Ends (peek k n) s Q :=
  .bind (.getS (.pure h))

theorem Ends.peek64 {k : Nat} {Q : Word → State → Prop} (h : Q (Mem.read64 s.mem k) s) : Ends (peek64 k) s Q :=
  .bind (.getS (.pure h))

theorem Ends.modCtx {k c : Nat} {f : Ctx → Ctx} {Q : Unit → State → Prop}
    (h : Q () ((Eff.ctx k c (f (s.ctx k c))).apply s)) : Ends (modCtx k c f) s Q :=
  .bind (.getCtx (.eff h))

theorem Ends.modCore {k : Nat} {f : Core → Core} {Q : Unit → State → Prop}
    (h : Q () ((Eff.core k (f (s.core k))).apply s)) : Ends (modCore k f) s Q :=
  .bind (.getCore (.eff h))

theorem Ends.modCluster {k : Nat} {f : Cluster → Cluster} {Q : Unit → State → Prop}
    (h : Q () ((Eff.cluster k (f (s.cluster k))).apply s)) : Ends (modCluster k f) s Q :=
  .bind (.getCluster (.eff h))

theorem Ends.modNet {f : Net → Net} {Q : Unit → State → Prop} (h : Q () ((Eff.net (f s.net)).apply s)) :
    Ends (modNet f) s Q :=
  .bind (.getS (.eff h))

/-- What a program ends in is all that goes on from it. -/
theorem Ends.mono {Q R : α → State → Prop} {p : M α} (h : Ends p s Q) (imp : ∀ a t, Q a t → R a t) : Ends p s R := by
  intro l
  obtain ⟨es, hp, hQ⟩ := h l
  exact ⟨es, hp, imp _ _ hQ⟩

/-- A loop: what each pass keeps holds at its end. -/
theorem Ends.loop {Q : PUnit → State → Prop} (I : State → Prop) {l : List α} {f : α → M Unit}
    (pass : ∀ x ∈ l, ∀ t, I t → Ends (f x) t fun _ => I) (start : I s) (h : ∀ t, I t → Q ⟨⟩ t) :
    Ends (forIn l PUnit.unit fun x _ => do f x; return .yield PUnit.unit) s Q := by
  induction l generalizing s with
  | nil => exact .pure (h s start)
  | cons x l ih =>
    rw [List.forIn_cons]
    refine .bind (.bind ((pass x List.mem_cons_self s start).mono fun _ t kept => .pure ?_))
    exact ih (fun y hy => pass y (List.mem_cons_of_mem _ hy)) kept

end M

/-- Two writes of one core are the second. -/
@[simp] theorem Eff.core_core (k : Nat) (x y : Core) (s : State) :
    (Eff.core k y).apply ((Eff.core k x).apply s) = (Eff.core k y).apply s := by
  simp [Eff.apply]

end Sys2Proof.Machine
end

section
/-! SUPPORT. What a home does with a request that stands first in its queue: the bytes a store writes, the port of a pool, the
operations a perform is made of, each as a rule of `M.Ends`. -/

namespace Sys2Proof.Machine

/-! ### Bytes left out of a write -/

/-- Memory after the bytes given are written from a key up, those given as none left out. -/
def Mem.putSome : Nat → List (Option Byte) → List Host.Cell → List Host.Cell
  | _, [], m => m
  | k, none :: d, m => Mem.putSome (k + 1) d m
  | k, some b :: d, m => Mem.putSome (k + 1) d (Mem.put k b m)

/-- A byte read after the write: the one given for it, if any. -/
theorem Mem.get_putSome {d : List (Option Byte)} {m : List Host.Cell} {k : Nat} (wf : Mem.wf m = true) (a : Nat) :
    Mem.get (Mem.putSome k d m) a = if k ≤ a then (d[a - k]?.join).getD (Mem.get m a) else Mem.get m a := by
  induction d generalizing k m with
  | nil => simp [Mem.putSome]
  | cons x d ih =>
    have tail : ∀ n, Mem.wf n = true → (k ≠ a → Mem.get n a = Mem.get m a) → k ≠ a →
        Mem.get (Mem.putSome (k + 1) d n) a =
          if k ≤ a then ((x :: d)[a - k]?.join).getD (Mem.get m a) else Mem.get m a := by
      intro n hn same hka
      rw [ih hn, same hka]
      by_cases hle : k + 1 ≤ a
      · rw [if_pos hle, if_pos (by omega), show a - k = (a - (k + 1)) + 1 by omega, List.getElem?_cons_succ]
      · rw [if_neg hle, if_neg (by omega)]
    by_cases hka : k = a
    · subst hka
      have beyond : ¬ k + 1 ≤ k := Nat.not_succ_le_self k
      cases x with
      | none =>
        simp only [Mem.putSome, ih wf, if_neg beyond, if_pos (Nat.le_refl k), Nat.sub_self, List.getElem?_cons_zero,
          Option.join_some, Option.getD_none]
      | some b =>
        simp only [Mem.putSome, ih (Mem.put_wf wf), if_neg beyond, if_pos (Nat.le_refl k), Nat.sub_self,
          List.getElem?_cons_zero, Option.join_some, Option.getD_some, Mem.get_put wf, if_true]
    · cases x with
      | none => exact tail m wf (fun _ => rfl) hka
      | some b => exact tail _ (Mem.put_wf wf) (fun h => by rw [Mem.get_put wf, if_neg h.symm]) hka

/-- The write writes the bytes given and no other. -/
theorem Mem.putSome_writes {d : List (Option Byte)} {m : List Host.Cell} (k : Nat) (wf : Mem.wf m = true) :
    (∀ i b, d[i]? = some (some b) → Mem.get (Mem.putSome k d m) (k + i) = b) ∧
    ∀ a, (∀ i b, d[i]? = some (some b) → a ≠ k + i) → Mem.get (Mem.putSome k d m) a = Mem.get m a := by
  refine ⟨fun i b h => by simp [Mem.get_putSome wf, h], fun a others => ?_⟩
  rw [Mem.get_putSome wf]
  split
  · rename_i hle
    cases h : d[a - k]?.join with
    | none => rfl
    | some b => exact absurd (Nat.add_sub_cancel' hle).symm (others _ b (Option.join_eq_some_iff.1 h))
  · rfl

/-- The state with these bytes written. -/
def State.putSome (s : State) (k : Nat) (d : List (Option Byte)) : State := { s with mem := Mem.putSome k d s.mem }

@[simp] theorem State.putSome_mem (s : State) (k : Nat) (d : List (Option Byte)) :
    (s.putSome k d).mem = Mem.putSome k d s.mem := rfl
@[simp] theorem State.putSome_sync (s : State) (k : Nat) (d : List (Option Byte)) : (s.putSome k d).sync = s.sync := rfl
@[simp] theorem State.putSome_ctxs (s : State) (k : Nat) (d : List (Option Byte)) : (s.putSome k d).ctxs = s.ctxs := rfl
@[simp] theorem State.putSome_cores (s : State) (k : Nat) (d : List (Option Byte)) : (s.putSome k d).cores = s.cores := rfl
@[simp] theorem State.putSome_clusters (s : State) (k : Nat) (d : List (Option Byte)) :
    (s.putSome k d).clusters = s.clusters := rfl
@[simp] theorem State.putSome_net (s : State) (k : Nat) (d : List (Option Byte)) : (s.putSome k d).net = s.net := rfl

/-! ### The operations of a home -/

namespace M

variable {s : State}

theorem Ends.pokeSome {Q : Unit → State → Prop} {k : Nat} {d : List (Option Byte)} (h : Q () (s.putSome k d)) :
    Ends (pokeSome k d) s Q := by
  induction d generalizing k s with
  | nil => exact .pure h
  | cons x d ih =>
    cases x with
    | none => exact .bind (.pure (ih h))
    | some b => exact .bind (.eff (ih h))

theorem Ends.poolBytes {Q : Unit → State → Prop} {k off : Nat} {d : List (Option Byte)}
    (h : ∀ e, Q () ((Eff.errs e).apply (s.putSome (poolKey k off) d))) : Ends (poolBytes k off d) s Q := by
  refine .bind (.pokeSome (.bind (.getS ?_)))
  dsimp only
  split
  · exact .eff (h _)
  · exact .pure (h s.errs)

/-- A word that is not marked has no waiter to wake (R177). -/
theorem Ends.evalWaiters {Q : Unit → State → Prop} {k w : Nat}
    (unmarked : (s.syncOf (poolKey k (8 * w) / 8)).getLsbD 1 = false) (h : Q () s) : Ends (evalWaiters k w) s Q := by
  refine .bind (.getS ?_)
  dsimp only
  rw [unmarked, if_neg Bool.false_ne_true]
  exact .pure h

/-- A write at a pool to words that are not marked (R165). -/
theorem Ends.poolWriteSome {Q : Unit → State → Prop} {k off : Nat} {d : List (Option Byte)}
    (unmarked : ∀ w ∈ wordsOf off d.length, (s.syncOf (poolKey k (8 * w) / 8)).getLsbD 1 = false)
    (h : ∀ e, Q () ((Eff.errs e).apply (s.putSome (poolKey k off) d))) : Ends (poolWriteSome k off d) s Q := by
  refine .bind (.poolBytes fun e => .bind (.loop (· = (Eff.errs e).apply (s.putSome (poolKey k off) d)) ?_ rfl ?_))
  · rintro w hw _ rfl
    exact .evalWaiters (unmarked w hw) rfl
  · rintro _ rfl
    exact .pure (h e)

/-- No watch is set at the home (R371, R373). -/
theorem Ends.homeWatch {Q : Unit → State → Prop} {k off n : Nat} {rd wr : Bool} {who : Agent}
    (unwatched : (s.core k).regs.wpctl.getLsbD 5 = false) (h : Q () s) : Ends (homeWatch k off n rd wr who) s Q := by
  refine .bind (.getS ?_)
  simp only [unwatched, Bool.and_false, Bool.false_and, if_neg Bool.false_ne_true]
  exact .pure h

/-- A store applied at a pool to words that are not marked. -/
theorem Ends.applyPool_store {Q : ReplyBody → State → Prop} {k off : Nat} {r : Req} {d : List (Option Byte)}
    (op : r.acc.op = .store d)
    (unmarked : ∀ w ∈ wordsOf off d.length, (s.syncOf (poolKey k (8 * w) / 8)).getLsbD 1 = false)
    (h : ∀ e, Q .written ((Eff.errs e).apply (s.putSome (poolKey k off) d))) : Ends (applyPool k off r) s Q := by
  simp only [applyPool, op]
  exact .bind (.peek64 (.bind (.getS (.bind (.pure (.bind (.poolWriteSome unmarked fun e => .pure (h e))))))))

/-- A LOCAL store performed at its own pool, to words that are not marked, where no watch is set. -/
theorem Ends.performReq_ownStore {Q : ReplyBody → State → Prop} {k off : Nat} {r : Req} {d : List (Option Byte)}
    (home : r.acc.home = .pool k) (own : r.own = true) (place : r.acc.addr = poolKey k off) (op : r.acc.op = .store d)
    (unmarked : ∀ w ∈ wordsOf off d.length, (s.syncOf (poolKey k (8 * w) / 8)).getLsbD 1 = false)
    (unwatched : (s.core k).regs.wpctl.getLsbD 5 = false)
    (h : ∀ e, Q .written ((Eff.errs e).apply (((Eff.log true k 0x19 0 1).apply s).putSome (poolKey k off) d))) :
    Ends (performReq r) s Q := by
  have offset : r.offset s k = some off := by
    simp only [Req.own, Bool.and_eq_true, Bool.not_eq_true'] at own
    simp [Req.offset, own.1.2, place, poolKey]
  refine .bind (.getS ?_)
  simp only [home, offset, own, if_true]
  refine .bind (.eff (.bind (.applyPool_store op unmarked fun e => ?_)))
  split
  · exact .bind (.homeWatch unwatched (.pure (h e)))
  · exact .pure (h e)

/-- A load applied at a bank of far memory. -/
theorem Ends.performReq_farLoad {Q : ReplyBody → State → Prop} {n : Nat} {r : Req} (home : r.acc.home = .far n)
    (op : r.acc.op = .load) (h : Q (.bytes (Mem.read s.mem r.acc.addr r.acc.size)) s) : Ends (performReq r) s Q := by
  refine .bind (.getS ?_)
  simp only [home, applyFar, op]
  exact .bind (.peek (.pure h))

/-- A store applied at a bank of far memory. -/
theorem Ends.performReq_farStore {Q : ReplyBody → State → Prop} {n : Nat} {r : Req} {d : List (Option Byte)}
    (home : r.acc.home = .far n) (op : r.acc.op = .store d) (h : Q .written (s.putSome r.acc.addr d)) :
    Ends (performReq r) s Q := by
  refine .bind (.getS ?_)
  simp only [home, applyFar, op]
  exact .bind (.pokeSome (.pure h))

/-- A pool's port serves a request: it has then served its access of this clock; an action that holds it lasts a clock
longer, where the request is one access (R18, R319). -/
theorem Ends.servePort_pool {Q : Unit → State → Prop} {k : Nat} {r : Req}
    (h : ∀ n hold, (s.clk.toNat < (s.core k).hold.till → portClocks (r.acc.addr - poolKey k 0) r.acc.size ≤ 1 →
        hold.till = (s.core k).hold.till + 1) →
      Q () ((Eff.core k { s.core k with portAt := some s.clk.toNat, portLast := n, hold := hold }).apply s)) :
    Ends (servePort (.pool k) r) s Q := by
  refine .bind (.now (.bind (.modCore ?_)))
  dsimp only
  split
  · rename_i several
    refine .bind (.now (.modCore ?_))
    rw [Eff.core_core, State.core_apply_same]
    exact h _ _ fun _ one => absurd several (Nat.not_lt.2 one)
  · exact .pure (h _ _ fun held _ => by rw [if_pos held])

/-- To serve a request changes a core at most. -/
theorem Ends.servePort_cores {Q : Unit → State → Prop} {home : Home} {r : Req} (h : ∀ cs, Q () { s with cores := cs }) :
    Ends (servePort home r) s Q := by
  cases home with
  | pool k => exact .servePort_pool fun _ _ _ => h _
  | far n => exact .pure (h s.cores)

/-- A context whose block runs waits for no access to go on. -/
theorem Ends.goOn_running {Q : Unit → State → Prop} {k c : Nat} (run : (s.ctx k c).phase = .run) (h : Q () s) :
    Ends (goOn k c) s Q := by
  have advance : Ends (advance k c) s Q := by
    refine .bind (.getCtx ?_)
    rw [run]
    exact .pure h
  refine .bind (.bind (.getCtx ?_))
  rw [run]
  split <;> exact .pure advance

/-- An acknowledged store of a context whose block runs is done with (R193). -/
theorem Ends.acknowledge_store {Q : Unit → State → Prop} {p : Reply} (live : (s.ctx p.core p.ctx).gen = p.gen)
    (run : (s.ctx p.core p.ctx).phase = .run) (store : p.acc.isStore = true)
    (h : Q () ((Eff.ctx p.core p.ctx { s.ctx p.core p.ctx with
      accs := (s.ctx p.core p.ctx).accs.filter fun a => a.key != p.acc.key }).apply s)) :
    Ends (acknowledge p) s Q := by
  refine .bind (.getCtx ?_)
  rw [live, bne_self_eq_false, if_neg Bool.false_ne_true, if_pos store]
  refine .bind (.modCtx (.goOn_running ?_ h))
  rw [State.ctx_apply_same]
  exact run

/-- The perform of a context's request whose page is present: the port serves it, the home answers, and the access of the
core's own pool is acknowledged at once; any other answer waits for its acknowledgement (R193). -/
theorem Ends.perform {P : State → Prop} {home h : Home} {r : Req} (head : s.arrived home = some (h, r))
    (isOpen : s.portShut home r = false) (ofCtx : r.eng = none) (present : r.acc.pagePresent = true)
    (steps : Ends (Machine.servePort home r) ((Eff.net { s.net with homes := s.net.homes.erase (h, r) }).apply s) fun _ t =>
      Ends (performReq r) t fun b u =>
        let p : Reply := { core := r.core, ctx := r.ctx, gen := r.gen, acc := r.acc, body := b }
        if r.own = true then Ends (acknowledge p) u fun _ => P
        else P ((Eff.net { u.net with performed := u.net.performed ++ [p] }).apply u)) :
    Reaches (exec (.perform home) s) P := by
  simp only [exec, execPerform, head, isOpen, present, ofCtx, Bool.not_true, Bool.and_false, if_neg Bool.false_ne_true]
  refine Ends.reaches (.bind (.modNet (.bind (steps.mono fun _ t answered => .bind (answered.mono fun b u done => ?_)))))
  dsimp only at done ⊢
  split
  · rwa [if_pos ‹_›] at done
  · rw [if_neg ‹_›] at done
    exact .modNet done

end M

/-! ### The head of a home's queue -/

/-- A request of the core's own that stands first in its pool's queue is the head: none goes before it (R18). -/
theorem State.arrived_own {s : State} {k : Nat} {r : Req} {l : List (Home × Req)}
    (first : s.net.homes = (.pool k, r) :: l) (home : r.acc.home = .pool k) (own : r.own = true) :
    s.arrived (.pool k) = some (.pool k, r) := by
  have rank : arrivalRank (s.servedLast (.pool k)) r = 0 := by simp only [arrivalRank, home, own, if_true]
  simp only [State.arrived, first, List.filter_cons, beq_self_eq_true, own, if_true, List.isEmpty_cons,
    if_neg Bool.false_ne_true, List.foldl_cons]
  induction (l.filter (·.1 == Home.pool k)).filter (·.2.own) with
  | nil => rfl
  | cons x q ih =>
    rw [List.foldl_cons]
    simpa only [rank, Nat.not_lt_zero, decide_false, Bool.and_false, if_neg Bool.false_ne_true] using ih

/-- The port serves a request of its core that an action on it leaves alone (R18, R319). -/
theorem PortOpen.not_shut {s : State} {k : Nat} {r : Req} (h : PortOpen s k r) (own : r.own = true) :
    s.portShut (.pool k) r = false := by
  obtain ⟨unused, apart⟩ := h
  simp only [State.portShut, Bool.or_eq_false_iff, beq_eq_false_iff_ne, Bool.and_eq_false_imp, decide_eq_true_eq,
    Bool.not_eq_false', own, Bool.true_and]
  refine ⟨unused, fun held => ?_⟩
  simp only [Req.apart, Bool.not_eq_true', List.any_eq_false, Bool.and_eq_true, decide_eq_true_eq]
  intro x hx
  have := apart held x hx
  omega

/-- A port that has served an access in this clock serves no other (R18). -/
theorem State.portShut_served {s : State} {k : Nat} (served : (s.core k).portAt = some s.clk.toNat) (r : Req) :
    s.portShut (.pool k) r = true := by
  simp [State.portShut, served]

/-- A request that touches a byte of an action is not apart from it. -/
theorem Req.apart_of_touched {r : Req} {k off : Nat} {h : PortHold} (place : r.acc.addr = poolKey k off)
    (touched : ∃ x ∈ h.touched, x.1 < off + r.acc.size ∧ off < x.1 + x.2) : r.apart k h = false := by
  obtain ⟨x, hx, before, after⟩ := touched
  have offset : poolKey k off - poolKey k 0 = off := by unfold poolKey; omega
  simp only [Req.apart, place, offset, Bool.not_eq_false', List.any_eq_true, Bool.and_eq_true, decide_eq_true_eq]
  exact ⟨x, hx, after, before⟩

/-- An action that holds a port keeps off it every request but the core's own to other bytes (R319). -/
theorem State.portShut_held {s : State} {k : Nat} {r : Req} (held : s.clk.toNat < (s.core k).hold.till)
    (kept : r.own = false ∨ r.apart k (s.core k).hold = false) : s.portShut (.pool k) r = true := by
  rcases kept with other | touching
  · simp [State.portShut, held, other]
  · simp [State.portShut, held, touching]

/-- A shut port serves nothing. -/
theorem exec_perform_shut {s : State} {home : Home} (shut : ∀ x, s.arrived home = some x → s.portShut home x.2 = true) :
    exec (.perform home) s = .next s := by
  simp only [exec, execPerform]
  split
  · rfl
  · rw [if_pos (shut _ ‹_›)]
    rfl

/-- A FAR access goes to a present page. -/
theorem Access.pagePresent_of {a : Access} (h : ∀ x, a.far = some x → x.st = 2) : a.pagePresent = true := by
  unfold Access.pagePresent
  split
  · rw [h _ ‹_›]
    rfl
  · rfl

end Sys2Proof.Machine
end

section
/-! PROOF. O41: stores and loads at their homes, the port of a pool, the replay queue. -/

namespace Sys2Proof.Machine

/-- A LOCAL store of a running block to words of its own pool that are not marked, where no watch is set. -/
structure OwnStore (s : State) (k off : Nat) (r : Req) (d : List (Option Byte)) : Prop where
  core : r.core = k
  own : r.own = true
  near : r.acc.far = none
  home : r.acc.home = .pool k
  place : r.acc.addr = poolKey k off
  op : r.acc.op = .store d
  live : (s.ctx k r.ctx).gen = r.gen
  run : (s.ctx k r.ctx).phase = .run
  unmarked : ∀ w ∈ wordsOf off d.length, (s.syncOf (poolKey k (8 * w) / 8)).getLsbD 1 = false
  unwatched : (s.core k).regs.wpctl.getLsbD 5 = false

/-- Such a store, first in the queue of a port that serves it, writes its bytes and is done with; an action on the port lasts a
clock longer for it. -/
theorem exec_perform_ownStore {s : State} {k off : Nat} {r : Req} {l : List (Home × Req)} {d : List (Option Byte)}
    (first : s.net.homes = (.pool k, r) :: l) (isOpen : PortOpen s k r) (store : OwnStore s k off r d) :
    Reaches (exec (.perform (.pool k)) s) fun t =>
      t.net.homes = l ∧ t.sync = s.sync ∧ (∀ x ∈ (t.ctx k r.ctx).accs, x.key ≠ r.acc.key) ∧
      (s.clk.toNat < (s.core k).hold.till → off / 64 = (off + r.acc.size - 1) / 64 →
        (t.core k).hold.till = (s.core k).hold.till + 1) ∧
      t.mem = Mem.putSome (poolKey k off) d s.mem := by
  obtain ⟨rfl, own, near, home, place, op, live, run, unmarked, unwatched⟩ := store
  have ofCtx : r.eng = none := by
    simp only [Req.own, Bool.and_eq_true, Option.isNone_iff_eq_none] at own
    exact own.1.1
  have present : r.acc.pagePresent = true := by simp [Access.pagePresent, near]
  refine M.Ends.perform (State.arrived_own first home own) (isOpen.not_shut own) ofCtx present
    (.servePort_pool fun n hold longer => .performReq_ownStore home own place op unmarked ?_ fun e => ?_)
  · rwa [State.core_apply_same]
  rw [if_pos own]
  refine .acknowledge_store live run (by simp only [Access.isStore, op]) ⟨?_, rfl, ?_, ?_, rfl⟩
  · simp [first]
  · intro x hx
    rw [State.ctx_apply_same] at hx
    simpa using (List.mem_filter.1 hx).2
  · intro held oneLine
    have one : portClocks (r.acc.addr - poolKey r.core 0) r.acc.size ≤ 1 := by
      rw [place]
      unfold portClocks poolKey
      split <;> omega
    simpa [State.core] using longer held one

/-- A far load answers with the bytes that stand at its address. -/
theorem exec_perform_farLoad {s : State} {n : Nat} {r : Req} (head : s.arrived (.far n) = some (.far n, r))
    (ofCtx : r.eng = none) (home : r.acc.home = .far n) (present : r.acc.pagePresent = true) (op : r.acc.op = .load) :
    Reaches (exec (.perform (.far n)) s) fun t => t.mem = s.mem ∧ t.net.homes = s.net.homes.erase (.far n, r) ∧
      t.net.performed = s.net.performed ++
        [{ core := r.core, ctx := r.ctx, gen := r.gen, acc := r.acc, body := .bytes (Mem.read s.mem r.acc.addr r.acc.size) }] := by
  have other : r.own = false := by simp [Req.own, home]
  refine M.Ends.perform head rfl ofCtx present (.pure (.performReq_farLoad home op ?_))
  rw [if_neg (by simp [other])]
  exact ⟨rfl, rfl, rfl⟩

/-- A far store writes its bytes at its bank. -/
theorem exec_perform_farStore {s : State} {n : Nat} {r : Req} {d : List (Option Byte)}
    (head : s.arrived (.far n) = some (.far n, r)) (ofCtx : r.eng = none) (home : r.acc.home = .far n)
    (present : r.acc.pagePresent = true) (op : r.acc.op = .store d) :
    Reaches (exec (.perform (.far n)) s) fun t => t.net.homes = s.net.homes.erase (.far n, r) ∧
      t.net.performed = s.net.performed ++
        [{ core := r.core, ctx := r.ctx, gen := r.gen, acc := r.acc, body := .written }] ∧
      t.mem = Mem.putSome r.acc.addr d s.mem := by
  have other : r.own = false := by simp [Req.own, home]
  refine M.Ends.perform head rfl ofCtx present (.pure (.performReq_farStore home op ?_))
  rw [if_neg (by simp [other])]
  exact ⟨rfl, rfl, rfl⟩

/-- A relaxed store to a page that is not present waits in the replay queue, which has room (R193, R200). -/
theorem exec_perform_defers {s : State} {h : Home} {r : Req} (head : s.arrived h = some (h, r))
    (isOpen : s.portShut h r = false) (store : r.acc.isStore = true) (relaxed : r.acc.cls = .relaxed)
    (absent : r.acc.pagePresent = false) (room : (s.cluster (r.core / 8)).replay.length < 16) :
    Reaches (exec (.perform h) s) fun t => t.net.homes = s.net.homes.erase (h, r) ∧ t.mem = s.mem ∧
      (t.cluster (r.core / 8)).replay = (s.cluster (r.core / 8)).replay ++ [r] := by
  simp only [exec, execPerform, head, isOpen, store, relaxed, absent, room, beq_self_eq_true, Bool.not_false,
    Bool.and_self, if_true, if_neg Bool.false_ne_true]
  refine M.Ends.reaches (.bind (.modNet (.bind (.servePort_cores fun cs => .bind (.modCluster ?_)))))
  split
  · exact .modCtx ⟨rfl, rfl, by simp [State.cluster]⟩
  · exact .pure ⟨rfl, rfl, by simp [State.cluster]⟩

/-- The oldest store of a replay queue is performed from there once its page is present (R193, R213). -/
theorem exec_replay_farStore {s : State} {cl n : Nat} {r : Req} {l : List Req} {d : List (Option Byte)}
    (first : (s.cluster cl).replay = r :: l) (home : r.acc.home = .far n) (present : r.acc.pagePresent = true)
    (op : r.acc.op = .store d) :
    Reaches (exec (.replay cl 0) s) fun t => (t.cluster cl).replay = l ∧
      t.net.performed = s.net.performed ++
        [{ core := r.core, ctx := r.ctx, gen := r.gen, acc := r.acc, body := .written }] ∧
      t.mem = Mem.putSome r.acc.addr d s.mem := by
  simp only [exec, execReplay, first, List.getElem?_cons_zero, present, Bool.not_true, List.take_zero, List.any_nil,
    Bool.or_self, if_neg Bool.false_ne_true]
  refine M.Ends.reaches (.bind (.modCluster (.bind (.performReq_farStore home op (.modNet ⟨?_, rfl, rfl⟩)))))
  change (((Eff.cluster cl _).apply s).cluster cl).replay = l
  simp [first]

/-- Settles O41: each perform is followed through the operations of its home, whose rules say what it writes; a shut port
serves nothing. -/
theorem loadsAndStores : Obligations.LoadsAndStores := by
  unfold Obligations.LoadsAndStores
  refine ⟨?ownStore, ?far, ?deferred, ?replayed, ?served, ?held⟩
  case ownStore =>
    intro s k off r l d first isOpen core ofCtx loc near home place _ op live run unmarked unwatched wf
    have own : r.own = true := by simp [Req.own, ofCtx, loc, home, core]
    obtain ⟨t, next, homes, sync, gone, longer, mem⟩ := exec_perform_ownStore first isOpen
      ⟨core, own, near, home, place, op, live, run, fun w _ => unmarked _, unwatched⟩
    exact ⟨t, next, homes, sync, gone, longer, mem ▸ Mem.putSome_writes _ wf⟩
  case far =>
    intro s n r head ofCtx home present wf
    have present := Access.pagePresent_of present
    refine ⟨exec_perform_farLoad head ofCtx home present, fun d op => ?_⟩
    obtain ⟨t, next, homes, performed, mem⟩ := exec_perform_farStore head ofCtx home present op
    exact ⟨t, next, homes, performed, mem ▸ Mem.putSome_writes _ wf⟩
  case deferred =>
    intro s h r x head isOpen store relaxed far filling room
    have absent : r.acc.pagePresent = false := by simpa only [Access.pagePresent, far, beq_eq_false_iff_ne]
    exact exec_perform_defers head isOpen store relaxed absent room
  case replayed =>
    intro s cl n r l d first home present op wf
    obtain ⟨t, next, queue, performed, mem⟩ := exec_replay_farStore first home (Access.pagePresent_of present) op
    exact ⟨t, next, queue, performed, mem ▸ Mem.putSome_writes _ wf⟩
  case served =>
    intro s k served
    exact exec_perform_shut fun x _ => State.portShut_served served x.2
  case held =>
    intro s k off r head place held kept
    refine exec_perform_shut fun x hx => ?_
    obtain rfl : (Home.pool k, r) = x := Option.some.inj (head.symm.trans hx)
    exact State.portShut_held held (kept.imp_right (Req.apart_of_touched place))

end Sys2Proof.Machine
end
